-- ==== Sys2Proof/Word.lean ====
section
/-! DEFINITION. The machine's bit-vector types (00_scope R9: bit 0 is the least significant bit, all values unsigned). -/

namespace Sys2Proof

/-- A command word: OP, A, B, C, one byte each (30_encoding R70). -/
abbrev Word := BitVec 32

/-- A byte: an operand of a command word, the 8-bit port value, a mask (30_encoding R73). -/
abbrev Byte := BitVec 8

/-- The six output channels: the latch OUT and what the output pins show (10_state R21, R27). -/
abbrev Latch := BitVec 6

/-- A SensorSample: bit 0 is channel 6, bit 1 is channel 7 (00_scope R10, `Sample()`). -/
abbrev Sensors := BitVec 2

/-- A 4-bit status or fault code (10_state R29, R32). -/
abbrev Nibble := BitVec 4

end Sys2Proof
end

