-- ==== Sys2Proof/Syntax.lean ====
section
/-! DEFINITION. The commands of IFA-CMD v1, one constructor per row of spec/opcode_table.json (30_encoding R74), and the names its operand codes stand for (R75 to R78, R191). -/

namespace Sys2Proof

/-- One constructor per decode row. Operands that the spec judges only at execution (R80) stay raw bytes. -/
inductive Instr where
  /-- SETDIR `A` = direction mask (40_port R101). -/
  | setdir (a : Byte)
  /-- WRITE `A` = mask, `B` = value (40_port R104). -/
  | write (mask value : Byte)
  /-- READ (40_port R107). -/
  | read
  /-- SET `A` = channel index (40_port R110). -/
  | set (a : Byte)
  /-- CLR `A` = channel index (40_port R112). -/
  | clr (a : Byte)
  /-- TGL `A` = channel index (40_port R114). -/
  | tgl (a : Byte)
  /-- BRIDGE `A` = pair code, `B` = bridge command code (41_bridge R144). -/
  | bridge (a b : Byte)
  /-- MANV `A[1:0]` = maneuver code; `A[7:2]` = 0 by the encoding (42_maneuver R162). -/
  | manv (a : Byte)
  /-- SENSE (40_port R119). -/
  | sense
  /-- NAVTICK (43_loops R181). -/
  | navtick
  /-- CONTICK, no key: `A` = `B` = 0 (43_loops R190). -/
  | contick
  /-- CONTICK, key code `A`, `B` = 1 (43_loops R190). -/
  | contickKey (key : Byte)
  /-- ZEROALL (40_port R117). -/
  | zeroall
  deriving DecidableEq, Repr

/-- A bridge pair: A = {0, 1}, B = {2, 3}, C = {4, 5} (10_state R24). -/
inductive Pair where
  | a | b | c
  deriving DecidableEq, Repr

/-- A BridgeCommand (41_bridge R141). -/
inductive BridgeCommand where
  | left | right | brake | coast
  deriving DecidableEq, Repr

/-- A maneuver (42_maneuver R161). -/
inductive Maneuver where
  | fwd | bwd | pivl | pivr
  deriving DecidableEq, Repr

/-- What a console key asks for (43_loops R191). -/
inductive KeyAction where
  | toggleChannel (i : Nat)
  | bridge (p : Pair) (c : BridgeCommand)
  | resetCounters
  | quit
  | noAction
  deriving DecidableEq, Repr

end Sys2Proof
end

