-- ==== Sys2Proof/WellFormed.lean ====
section
/-! DEFINITION. Which commands the encoding can spell. -/

namespace Sys2Proof

/-- The one operand the encoding itself restricts: MANV's `A[7:2]` = 0 (30_encoding R77). Every other
operand byte is encodable at every value; out-of-range ones fault when they execute (R80). -/
def Instr.wf : Instr → Bool
  | .setdir _ => true
  | .write _ _ => true
  | .read => true
  | .set _ => true
  | .clr _ => true
  | .tgl _ => true
  | .bridge _ _ => true
  | .manv a => a.extractLsb' 2 6 == 0#6
  | .sense => true
  | .navtick => true
  | .contick => true
  | .contickKey _ => true
  | .zeroall => true

/-- A command the encoding can spell. -/
abbrev Instr.WellFormed (i : Instr) : Prop := i.wf = true

end Sys2Proof
end

