-- ==== Sys2Proof/Decode.lean ====
section
/-! DEFINITION. The decoder, total on every word and every string of bytes, and the encoder, both from 30_encoding R70 to R79; the opcode map of R74 as rows of match and mask. -/

namespace Sys2Proof

/-- Why bytes are not a command. The first two are the illegal words of 30_encoding R79. -/
inductive DecodeError where
  /-- Opcode 0x00 or 0x0D to 0xFF. -/
  | reservedOpcode
  /-- A reserved operand byte or bit is not 0, or CONTICK's `B` is 2 or more, or 0 with `A` not 0. -/
  | reservedOperand
  /-- Fewer than four bytes: a partial word is never decoded (20_memory R53). -/
  | partialWord
  deriving DecidableEq, Repr

/-- `OP`, bits 31:24 (R70). -/
def wordOp (w : Word) : Byte := w.extractLsb' 24 8

/-- `A`, bits 23:16 (R70). -/
def wordA (w : Word) : Byte := w.extractLsb' 16 8

/-- `B`, bits 15:8 (R70). -/
def wordB (w : Word) : Byte := w.extractLsb' 8 8

/-- `C`, bits 7:0 (R70). -/
def wordC (w : Word) : Byte := w.extractLsb' 0 8

/-- `word = (OP << 24) | (A << 16) | (B << 8) | C` (R70). -/
def mkWord (op a b c : Byte) : Word :=
  (op.setWidth 32 <<< 24) ||| (a.setWidth 32 <<< 16) ||| (b.setWidth 32 <<< 8) ||| c.setWidth 32

/-- Format F0: `A = B = C = 0` (R72). -/
def formatF0 (a b c : Byte) (i : Instr) : Except DecodeError Instr :=
  if a = 0#8 ∧ b = 0#8 ∧ c = 0#8 then .ok i else .error .reservedOperand

/-- Format F1: `B = C = 0` (R72). -/
def formatF1 (b c : Byte) (i : Instr) : Except DecodeError Instr :=
  if b = 0#8 ∧ c = 0#8 then .ok i else .error .reservedOperand

/-- Format F2: `C = 0` (R72). -/
def formatF2 (c : Byte) (i : Instr) : Except DecodeError Instr :=
  if c = 0#8 then .ok i else .error .reservedOperand

/-- MANV: F1 with `A[7:2]` = 0 (R77). -/
def decodeManv (a b c : Byte) : Except DecodeError Instr :=
  if a.extractLsb' 2 6 = 0#6 then formatF1 b c (.manv a) else .error .reservedOperand

/-- CONTICK: `B` = 0 no key and `A` = 0, `B` = 1 a key in `A`, `B` ≥ 2 illegal (R74, R79). -/
def decodeContick (a b c : Byte) : Except DecodeError Instr :=
  if b = 1#8 then formatF2 c (.contickKey a) else formatF0 a b c .contick

/-- The opcode map on the four fields (R74, R79). -/
def decodeFields (op a b c : Byte) : Except DecodeError Instr :=
  match op.toNat with
  | 0x01 => formatF1 b c (.setdir a)
  | 0x02 => formatF2 c (.write a b)
  | 0x03 => formatF0 a b c .read
  | 0x04 => formatF1 b c (.set a)
  | 0x05 => formatF1 b c (.clr a)
  | 0x06 => formatF1 b c (.tgl a)
  | 0x07 => formatF2 c (.bridge a b)
  | 0x08 => decodeManv a b c
  | 0x09 => formatF0 a b c .sense
  | 0x0A => formatF0 a b c .navtick
  | 0x0B => decodeContick a b c
  | 0x0C => formatF0 a b c .zeroall
  | _ => .error .reservedOpcode

/-- Every word decodes to one row or is illegal; nothing but the word decides (R81, R82). -/
def decode (w : Word) : Except DecodeError Instr :=
  decodeFields (wordOp w) (wordA w) (wordB w) (wordC w)

/-- A byte transport: four bytes, opcode first, make a word (R71, 20_memory R53). -/
def decodeBytes : List Byte → Except DecodeError (Instr × List Byte)
  | op :: a :: b :: c :: rest =>
    match decode (mkWord op a b c) with
    | .ok i => .ok (i, rest)
    | .error e => .error e
  | [] => .error .partialWord
  | [_] => .error .partialWord
  | [_, _] => .error .partialWord
  | [_, _, _] => .error .partialWord

/-- The four bytes of a word in the order they travel (R71). -/
def wordBytes (w : Word) : List Byte := [wordOp w, wordA w, wordB w, wordC w]

/-- The word of a command (R74). -/
def encode : Instr → Word
  | .setdir a => mkWord 0x01#8 a 0#8 0#8
  | .write m v => mkWord 0x02#8 m v 0#8
  | .read => mkWord 0x03#8 0#8 0#8 0#8
  | .set a => mkWord 0x04#8 a 0#8 0#8
  | .clr a => mkWord 0x05#8 a 0#8 0#8
  | .tgl a => mkWord 0x06#8 a 0#8 0#8
  | .bridge a b => mkWord 0x07#8 a b 0#8
  | .manv a => mkWord 0x08#8 a 0#8 0#8
  | .sense => mkWord 0x09#8 0#8 0#8 0#8
  | .navtick => mkWord 0x0A#8 0#8 0#8 0#8
  | .contick => mkWord 0x0B#8 0#8 0#8 0#8
  | .contickKey k => mkWord 0x0B#8 k 0x01#8 0#8
  | .zeroall => mkWord 0x0C#8 0#8 0#8 0#8

/-- A row of the opcode map: a word selects it when `w & mask = match` (R74). -/
structure OpcodeRow where
  mnemonic : String
  matchBits : Word
  mask : Word
  deriving DecidableEq, Repr

/-- A word selects a row (R74). -/
def OpcodeRow.selects (r : OpcodeRow) (w : Word) : Bool := w &&& r.mask == r.matchBits

/-- The row of R74 a command belongs to. -/
def Instr.row : Instr → OpcodeRow
  | .setdir _ => ⟨"SETDIR", 0x01000000#32, 0xFF00FFFF#32⟩
  | .write _ _ => ⟨"WRITE", 0x02000000#32, 0xFF0000FF#32⟩
  | .read => ⟨"READ", 0x03000000#32, 0xFFFFFFFF#32⟩
  | .set _ => ⟨"SET", 0x04000000#32, 0xFF00FFFF#32⟩
  | .clr _ => ⟨"CLR", 0x05000000#32, 0xFF00FFFF#32⟩
  | .tgl _ => ⟨"TGL", 0x06000000#32, 0xFF00FFFF#32⟩
  | .bridge _ _ => ⟨"BRIDGE", 0x07000000#32, 0xFF0000FF#32⟩
  | .manv _ => ⟨"MANV", 0x08000000#32, 0xFFFCFFFF#32⟩
  | .sense => ⟨"SENSE", 0x09000000#32, 0xFFFFFFFF#32⟩
  | .navtick => ⟨"NAVTICK", 0x0A000000#32, 0xFFFFFFFF#32⟩
  | .contick => ⟨"CONTICK", 0x0B000000#32, 0xFFFFFFFF#32⟩
  | .contickKey _ => ⟨"CONTICK", 0x0B000100#32, 0xFF00FFFF#32⟩
  | .zeroall => ⟨"ZEROALL", 0x0C000000#32, 0xFFFFFFFF#32⟩

/-- The thirteen rows of R74, in the table's order. -/
def opcodeRows : List OpcodeRow :=
  [Instr.row (.setdir 0#8), Instr.row (.write 0#8 0#8), Instr.row .read, Instr.row (.set 0#8),
    Instr.row (.clr 0#8), Instr.row (.tgl 0#8), Instr.row (.bridge 0#8 0#8), Instr.row (.manv 0#8),
    Instr.row .sense, Instr.row .navtick, Instr.row .contick, Instr.row (.contickKey 0#8), Instr.row .zeroall]

/-- What the decoder reads from an instruction numbered as spec/opcode_table.json numbers it: one 32-bit
word (R82), handed to the byte decoder in the order its bytes travel. -/
def decodeTableWord (nbits w : Nat) : Option Instr :=
  match decodeBytes (wordBytes (BitVec.ofNat 32 (w % 2 ^ nbits))) with
  | .ok (i, _) => some i
  | .error _ => none

end Sys2Proof
end

