-- ==== Sys2Proof/Config.lean ====
section
/-! DEFINITION. What is fixed for the machine at elaboration (00_scope R7, R8) and the free values: the environment's answers (10_state R22, 60_exceptions R216) and the console letters of pairs B and C (93 I14). -/

namespace Sys2Proof

/-- The environment's answer to one device exchange (00_scope R6, R10): it fails, or it succeeds and the
input pins hold a 2-bit value at that instant. -/
inductive Exchange where
  | failed
  | done (pins : Sensors)
  deriving DecidableEq, Repr, Inhabited

/-- KEYMAP_BC: the upper-case codes of the eight letters that drive pairs B and C (30_encoding R78). -/
structure Keymap where
  bLeft : Byte
  bRight : Byte
  bCoast : Byte
  bBrake : Byte
  cLeft : Byte
  cRight : Byte
  cCoast : Byte
  cBrake : Byte
  deriving DecidableEq, Repr, Inhabited

/-- The eight letters as a list. -/
def Keymap.letters (k : Keymap) : List Byte :=
  [k.bLeft, k.bRight, k.bCoast, k.bBrake, k.cLeft, k.cRight, k.cCoast, k.cBrake]

/-- "eight letters, ... distinct from each other and from A, S, Z, X and Q" (30_encoding R78). -/
def Keymap.legal (k : Keymap) : Bool :=
  decide k.letters.Nodup
    && k.letters.all (fun l =>
      decide (0x41 ≤ l.toNat) && decide (l.toNat ≤ 0x5A)
        && !(([0x41#8, 0x53#8, 0x5A#8, 0x58#8, 0x51#8] : List Byte).contains l))

/-- The configuration parameters of 00_scope R8 with their defaults there; delays are in ticks. They are
supplied at elaboration; no command writes them (92 D33) and reset does not touch them (70 R241). -/
structure Config where
  /-- CMD_DELAY, the maneuver hold. -/
  cmdDelay : Nat := 5
  /-- LOOP_DELAY, the navigation sleep. -/
  loopDelay : Nat := 100
  /-- CON_DELAY, the console sleep: where it is not given, LOOP_DELAY. -/
  conDelay : Nat := loopDelay
  /-- CNT_WIDTH: `none` is unbounded, `some w` a counter of `w` bits. -/
  cntWidth : Option Nat := none
  /-- KEYMAP_BC, which has no default. -/
  keymap : Keymap
  /-- T_TICK in seconds (log 7). -/
  tTick : Rat := { num := 1, den := 1000 }
  deriving DecidableEq, Repr

namespace Config

/-- The legal values of 00_scope R8. -/
def legal (c : Config) : Bool :=
  decide (1 ≤ c.cmdDelay) && decide (0 < c.tTick) && c.keymap.legal
    && (match c.cntWidth with
        | none => true
        | some w => decide (1 ≤ w))

/-- FREE VALUE (log 3): the environment's answer to the n-th exchange, where `State.env` does not hold it. -/
opaque freeExchange : Nat → Exchange

/-- FREE VALUE (log 5): eight letters of which nothing is known. -/
opaque freeKeymap : Keymap

/-- A keymap of which only its legality is known: the free letters where they are legal. The other branch
exists so that the value is legal in every case (log 5). -/
def someKeymap : Keymap :=
  if freeKeymap.legal then freeKeymap
  else ⟨0x44#8, 0x46#8, 0x43#8, 0x56#8, 0x47#8, 0x48#8, 0x42#8, 0x4E#8⟩

/-- The defaults of 00_scope R8; KEYMAP_BC has none and stays free (log 5). -/
def defaults : Config := { keymap := someKeymap }

end Config

/-- DIR_MASK, the one legal direction mask (00_scope R7). -/
def dirMask : Byte := 0x3F#8

/-- NAV_BURST, the pivotRight repetitions on a low primary sensor (00_scope R7). -/
def navBurst : Nat := 6

end Sys2Proof
end

