-- ==== Sys2Proof/Machine/State.lean ====
section
/-! DEFINITION. The machine's state as plain data (10_state R20 to R31), with the configuration, the host's moves and the environment's answers that R20 calls parameters of the step, and the observation of R35; and the state after reset (70 R241). -/

namespace Sys2Proof.Machine

/-- The seven faults of 60_exceptions R211. Each is taken as a next state (R220). -/
inductive FaultCode where
  | invalidChannel
  | invalidBridgeArgs
  | deviceUnavailable
  | illegalCommand
  | notConfigured
  | dirReconfigure
  | invalidDirMask
  deriving DecidableEq, Repr

/-- PINS_OUT: output pins 0 to 5 as the H-bridges see them (10_state R27). -/
inductive PinState where
  | undriven
  | driven (v : Latch)
  | unknown
  deriving DecidableEq, Repr

/-- One entry of the pin trace: a value and the tick at which it took effect (10_state R35). -/
structure TraceEntry where
  pins : PinState
  tick : Nat
  deriving DecidableEq, Repr

/-- The response record of 10_state R32. -/
structure Response where
  status : Nibble
  err : Nibble
  data : Byte
  sense : Sensors
  cnt6 : Nat
  cnt7 : Nat
  quit : Bool
  deriving DecidableEq, Repr

/-- SEQ, the sequencer position (10_state R30). -/
inductive Seq where
  /-- No command in progress. -/
  | ready
  /-- Command `c` in progress, about to perform its micro-step `k`. -/
  | exec (c : Instr) (k : Nat)
  /-- A command in progress whose fault `e` has been raised: `cleaned` says whether the cleanup commit of
  60_exceptions R220 is behind it and only the response is left (log 10). -/
  | faulting (e : FaultCode) (cleaned : Bool)
  /-- Halted. -/
  | halt
  deriving DecidableEq, Repr

/-- The hidden working values of a command in progress (10_state R31). -/
structure Hidden where
  /-- Remaining ticks of a Wait under way. -/
  waitLeft : Option Nat
  /-- The sample S of the command. -/
  sample : Option Sensors
  /-- The repetition index of NAVTICK's burst. -/
  burst : Nat
  /-- CONTICK's quit bit. -/
  quit : Bool
  deriving DecidableEq, Repr

/-- No hidden values: no command in progress (70 R241; log 23). -/
def Hidden.idle : Hidden := ⟨none, none, 0, false⟩

/-- One move of the host (10_state R33, R38; log 1, log 2). -/
inductive Move where
  /-- The host offers a command word; the controller executes it to its response in one step. -/
  | word (w : Word)
  /-- The host offers a command word; the controller accepts it and stands before its first micro-step. -/
  | offer (w : Word)
  /-- The controller performs its next micro-step. -/
  | go
  /-- One tick of a Wait under way passes. -/
  | tick
  /-- One byte of a command word on a byte transport. -/
  | byte (b : Byte)
  /-- The reset input is asserted. -/
  | reset
  deriving DecidableEq, Repr

/-- The whole state. `out` to `hidden` are the controller's (10_state R20); `rx` is a byte transport's
partial word (20_memory R53); `cfg`, `moves`, `env` and `draws` are the parameters of the step;
`ticks`, `trace` and `responses` are the observation so far (R35). -/
structure State where
  out : Latch
  dir : Byte
  dirset : Bool
  pinsOut : PinState
  cnt6 : Nat
  cnt7 : Nat
  halted : Bool
  err : Nibble
  seq : Seq
  hidden : Hidden
  rx : List Byte
  cfg : Config
  moves : List Move
  env : List Exchange
  draws : Nat
  ticks : Nat
  trace : List TraceEntry
  responses : List Response
  deriving DecidableEq, Repr

/-- The machine right after reset (70 R241), at the start of a run: nothing observed, nothing offered.
`dir` is not specified by the spec (log 4); `moves` and `env` are inputs (log 2, log 3). -/
def State.reset : State where
  out := 0#6
  dir := 0#8
  dirset := false
  pinsOut := .undriven
  cnt6 := 0
  cnt7 := 0
  halted := false
  err := 0#4
  seq := .ready
  hidden := .idle
  rx := []
  cfg := Config.defaults
  moves := []
  env := []
  draws := 0
  ticks := 0
  trace := []
  responses := []

/-- Why a step stops. The hardware's own faults are next states (60_exceptions R220), not these. -/
inductive Fault where
  /-- Raised by `step` alone, at a position EXEC(c, k) where command `c` has no micro-step `k`; no run
  reaches one. Safe: the model stops (log 14). -/
  | noMicroStep
  deriving DecidableEq, Repr

/-- Why a step refuses. -/
inductive Refusal where
  /-- Raised by `exec`'s arms for an instruction without a meaning; there is none left. Safe. -/
  | notModelled (mnemonic : String)
  deriving DecidableEq, Repr

end Sys2Proof.Machine
end

