-- ==== Sys2Proof/Machine/Operands.lean ====
section
/-! DEFINITION. Operand forms: pair, bridge-command and maneuver codes (30_encoding R75 to R77), channel masks (10_state R24), the target table (41_bridge R141), the maneuver table (42_maneuver R161) and the console's key dispatch (R78, 43_loops R191). -/

namespace Sys2Proof.Machine

/-- Pair codes 0, 1, 2; every other byte is unrecognized (30_encoding R75). -/
def pairOfCode (a : Byte) : Option Pair :=
  match a.toNat with
  | 0 => some .a
  | 1 => some .b
  | 2 => some .c
  | _ => none

/-- Bridge command codes 0 to 3; every other byte is unrecognized (30_encoding R76). -/
def bridgeCommandOfCode (b : Byte) : Option BridgeCommand :=
  match b.toNat with
  | 0 => some .left
  | 1 => some .right
  | 2 => some .brake
  | 3 => some .coast
  | _ => none

/-- Maneuver codes in `A[1:0]` (30_encoding R77). -/
def maneuverOfCode (a : Byte) : Maneuver :=
  match (a.extractLsb' 0 2).toNat with
  | 0 => .fwd
  | 1 => .bwd
  | 2 => .pivl
  | _ => .pivr

/-- `lo(p) = 2p`, the first channel (10_state R24). -/
def pairLo : Pair → Nat
  | .a => 0
  | .b => 2
  | .c => 4

/-- `hi(p) = 2p + 1`, the second channel (10_state R24). -/
def pairHi (p : Pair) : Nat := pairLo p + 1

/-- Channel i's mask, `1 << i` (10_state R24). -/
def channelMask (i : Nat) : Byte := 1#8 <<< i

/-- `PORT[7:6]` of a mask names input channels (40_port R104). -/
def namesInputs (mask : Byte) : Bool := mask.extractLsb' 6 2 != 0#2

/-- The target bits of the two channels, first then second (41_bridge R141). -/
def bridgeTarget : BridgeCommand → Bool × Bool
  | .left => (true, false)
  | .right => (false, true)
  | .brake => (true, true)
  | .coast => (false, false)

/-- The commands for pairs A and B of a maneuver (42_maneuver R161). -/
def maneuverTable : Maneuver → BridgeCommand × BridgeCommand
  | .fwd => (.left, .left)
  | .bwd => (.right, .right)
  | .pivl => (.left, .right)
  | .pivr => (.right, .left)

/-- Whether a key code is a letter; letters are case insensitive (43_loops R191). -/
def isLetter (key : Byte) : Bool :=
  (decide (0x41 ≤ key.toNat) && decide (key.toNat ≤ 0x5A))
    || (decide (0x61 ≤ key.toNat) && decide (key.toNat ≤ 0x7A))

/-- The upper-case code of a letter (log 6). -/
def upperCase (key : Byte) : Byte :=
  if 0x61 ≤ key.toNat then key - 0x20#8 else key

/-- The letters of KEYMAP_BC (30_encoding R78). -/
def dispatchKeymap (k : Keymap) (letter : Byte) : KeyAction :=
  if letter = k.bLeft then .bridge .b .left
  else if letter = k.bRight then .bridge .b .right
  else if letter = k.bCoast then .bridge .b .coast
  else if letter = k.bBrake then .bridge .b .brake
  else if letter = k.cLeft then .bridge .c .left
  else if letter = k.cRight then .bridge .c .right
  else if letter = k.cCoast then .bridge .c .coast
  else if letter = k.cBrake then .bridge .c .brake
  else .noAction

/-- The letters: A, S, Z, X on pair A, Q, then KEYMAP_BC (30_encoding R78). -/
def dispatchLetter (k : Keymap) (letter : Byte) : KeyAction :=
  match letter.toNat with
  | 0x41 => .bridge .a .left
  | 0x53 => .bridge .a .right
  | 0x5A => .bridge .a .coast
  | 0x58 => .bridge .a .brake
  | 0x51 => .quit
  | _ => dispatchKeymap k letter

/-- `Dispatch(key)` (43_loops R191, the table of 30_encoding R78). -/
def dispatchKey (k : Keymap) (key : Byte) : KeyAction :=
  if isLetter key then dispatchLetter k (upperCase key)
  else match key.toNat with
    | 0x30 => .resetCounters
    | 0x31 => .toggleChannel 0
    | 0x32 => .toggleChannel 1
    | 0x33 => .toggleChannel 2
    | 0x34 => .toggleChannel 3
    | 0x35 => .toggleChannel 4
    | 0x36 => .toggleChannel 5
    | 0x1B => .quit
    | _ => .noAction

end Sys2Proof.Machine
end

