-- ==== Sys2Proof/Machine/Flags.lean ====
section
/-! DEFINITION. The block has no condition flags (10_state R36). What plays their part: the fault codes of ERR and `status` (60_exceptions R211), the response records (10_state R32) and the counter increment (43_loops R193). -/

namespace Sys2Proof.Machine

/-- The code of a fault (60_exceptions R211). -/
def FaultCode.code : FaultCode → Nibble
  | .invalidChannel => 1#4
  | .invalidBridgeArgs => 2#4
  | .deviceUnavailable => 3#4
  | .illegalCommand => 4#4
  | .notConfigured => 5#4
  | .dirReconfigure => 6#4
  | .invalidDirMask => 7#4

/-- REFUSED, the `status` of every response while halted (60_exceptions R221). -/
def statusRefused : Nibble := 0xF#4

/-- A response whose fields other than `status` and `err` are 0 (10_state R32). -/
def plainResponse (status err : Nibble) : Response :=
  ⟨status, err, 0#8, 0#2, 0, 0, false⟩

/-- `inc` (43_loops R193): unbounded, or saturating at `2^W - 1` (log 18). -/
def countUp (width : Option Nat) (x : Nat) : Nat :=
  match width with
  | none => x + 1
  | some w => min (x + 1) (2 ^ w - 1)

/-- A counter after a sample of its channel: "reads low" is the bit 0 (43_loops R190, 00_scope R12). -/
def countLow (width : Option Nat) (high : Bool) (x : Nat) : Nat :=
  if high then x else countUp width x

/-- The masked merge of `PortWrite` (00_scope R10): `(OUT & ~mask[5:0]) | (value[5:0] & mask[5:0])`. -/
def mergeLatch (out : Latch) (mask value : Byte) : Latch :=
  (out &&& ~~~(mask.setWidth 6)) ||| (value.setWidth 6 &&& mask.setWidth 6)

/-- What a successful command reports (10_state R32). -/
inductive Report where
  /-- `status` and `err` only. -/
  | plain
  /-- READ: `data` = the port value. -/
  | port
  /-- SENSE and NAVTICK: `sense`. -/
  | sense
  /-- CONTICK: `sense`, the counters and `quit`. -/
  | console
  deriving DecidableEq, Repr

/-- The port value `{IN, OUT}` (10_state R23). -/
def portValue (pins : Sensors) (out : Latch) : Byte := pins ++ out

/-- The sample of the command in progress, as the response's 2-bit field: 0 where it took none. -/
def State.sampled (s : State) : Sensors := s.hidden.sample.getD 0#2

/-- The response record of a command that ends without fault (10_state R32). -/
def okResponse (r : Report) (s : State) : Response :=
  match r with
  | .plain => plainResponse 0#4 s.err
  | .port => ⟨0#4, s.err, portValue s.sampled s.out, 0#2, 0, 0, false⟩
  | .sense => ⟨0#4, s.err, 0#8, s.sampled, 0, 0, false⟩
  | .console => ⟨0#4, s.err, 0#8, s.sampled, s.cnt6, s.cnt7, s.hidden.quit⟩

end Sys2Proof.Machine
end

