-- ==== Sys2Proof/Machine/Ops.lean ====
section
/-! DEFINITION. The operations every command is made of: device exchanges, commits and samples (00_scope R10), waits, responses, taking a fault (60_exceptions R220), reset (70 R240, R241), micro-steps (00_scope R13) and the run of a command through its micro-steps. -/

namespace Sys2Proof.Machine

/-! ### Device exchanges -/

/-- Whether an exchange succeeds (00_scope R10). -/
def exchangeSucceeds : Exchange → Bool
  | .failed => false
  | .done _ => true

/-- The answer to the n-th exchange from now: the environment's list, and beyond it a free value (log 3). -/
def State.exchangeAt (s : State) (n : Nat) : Exchange :=
  s.env[n]?.getD (Config.freeExchange (s.draws + n))

/-- One exchange is over. -/
def State.drawExchange (s : State) : State :=
  { s with env := s.env.drop 1, draws := s.draws + 1 }

/-- `PINS_OUT <- OUT` (00_scope R10). -/
def State.drivePins (s : State) : State := { s with pinsOut := .driven s.out }

/-- `PINS_OUT <- Unknown` (60_exceptions R224). -/
def State.losePins (s : State) : State := { s with pinsOut := .unknown }

/-- The pin trace gains the present pins at the present tick (10_state R35). -/
def State.tracePins (s : State) : State := { s with trace := s.trace ++ [⟨s.pinsOut, s.ticks⟩] }

/-- The response is given (00_scope R10, `respond`). -/
def State.respond (r : Response) (s : State) : State := { s with responses := s.responses ++ [r] }

/-- How a stretch of a command ends: it goes on, or a fault is raised (60_exceptions R220). -/
inductive Flow where
  | going (s : State)
  | raised (e : FaultCode) (s : State)
  deriving DecidableEq, Repr

/-- Go on with `f` unless a fault was raised. -/
def Flow.andThen (x : Flow) (f : State → Flow) : Flow :=
  match x with
  | .going s => f s
  | .raised e s => .raised e s

/-- `Commit()` (00_scope R10, 10_state R35). -/
def commit (s : State) : Flow :=
  match s.exchangeAt 0 with
  | .done _ => .going s.drawExchange.drivePins.tracePins
  | .failed => .raised .deviceUnavailable s.drawExchange.losePins.tracePins

/-- `S <- Sample()` (00_scope R10): a successful one re-drives the pins and adds no trace entry (R35). -/
def takeSample (s : State) : Flow :=
  match s.exchangeAt 0 with
  | .done pins =>
    .going { s.drawExchange.drivePins with hidden := { s.hidden with sample := some pins } }
  | .failed => .raised .deviceUnavailable s.drawExchange.losePins.tracePins

/-! ### Faults, halt and reset -/

/-- `ERR <- code(E)`, the rest of the command and its hidden values discarded, `OUT <- 0`
(60_exceptions R220, before the cleanup commit). -/
def State.enterFault (e : FaultCode) (s : State) : State :=
  { s with err := e.code, hidden := .idle, out := 0#6 }

/-- The cleanup: one commit attempt if `DIRSET` = 1; its failure is no second fault (R220, R225). -/
def faultCleanup (e : FaultCode) (s : State) : State :=
  if s.dirset then
    match commit (s.enterFault e) with
    | .going t => t
    | .raised _ t => t
  else s.enterFault e

/-- `HALTED <- 1`, `SEQ <- HALT`, and the response (R220). -/
def faultRespond (e : FaultCode) (s : State) : State :=
  ({ s with halted := true, seq := .halt } : State).respond (plainResponse e.code s.err)

/-- `TakeFault(E)` (60_exceptions R220), the one way a fault is taken. -/
def takeFault (e : FaultCode) (s : State) : State := faultRespond e (faultCleanup e s)

/-- A word accepted while halted: status 0xF and nothing else (60_exceptions R221). -/
def refuseHalted (s : State) : State := s.respond (plainResponse statusRefused s.err)

/-- Reset (70 R240, R241): every piece of the controller's state to its reset value, the command in
progress and a partial word abandoned, no response, one `Undriven` entry in the pin trace (10_state
R35). It is also the only way out of HALT (60_exceptions R222). The configuration, the inputs and the
observation are not state (R20) and stay (log 8). -/
def applyReset (s : State) : State :=
  ({ State.reset with
      cfg := s.cfg, moves := s.moves, env := s.env, draws := s.draws
      ticks := s.ticks, trace := s.trace, responses := s.responses } : State).tracePins

/-! ### Micro-steps -/

/-- A register update inside a command; it belongs to the micro-step it precedes (00_scope R13). -/
inductive RegUpdate where
  /-- `DIR <- 0x3F`, `DIRSET <- 1` (40_port R101). -/
  | setDir
  /-- The latch part of `PortWrite(mask, value)` (00_scope R10). -/
  | latch (mask value : Byte)
  /-- TGL's read of the latch bit and the latch part of its write (40_port R114). -/
  | toggle (i : Nat)
  /-- `CNT6 <- 0`, `CNT7 <- 0` (43_loops R190). -/
  | clearCounters
  /-- The two counter increments on the sample (43_loops R190, R193). -/
  | count
  /-- NAVTICK's repetition index (10_state R31). -/
  | burst (k : Nat)
  /-- `quit <- 1` (43_loops R190). -/
  | quit
  deriving DecidableEq, Repr

/-- The three delays (60_exceptions R228). -/
inductive Delay where
  | cmd | loop | con
  deriving DecidableEq, Repr

/-- A delay in ticks (00_scope R8). -/
def delayTicks (c : Config) : Delay → Nat
  | .cmd => c.cmdDelay
  | .loop => c.loopDelay
  | .con => c.conDelay

/-- The four kinds of micro-step (00_scope R13). -/
inductive Primitive where
  | commit
  | sample
  | wait (d : Delay)
  | respond (r : Report)
  deriving DecidableEq, Repr

/-- A micro-step: the register updates that belong to it, then its primitive (00_scope R13). -/
structure MicroStep where
  pre : List RegUpdate
  prim : Primitive
  deriving DecidableEq, Repr

/-- The effect of a register update. -/
def applyUpdate (s : State) : RegUpdate → State
  | .setDir => { s with dir := dirMask, dirset := true }
  | .latch mask value => { s with out := mergeLatch s.out mask value }
  | .toggle i =>
    { s with
      out :=
        if s.out.getLsbD i then mergeLatch s.out (channelMask i) 0#8
        else mergeLatch s.out (channelMask i) (channelMask i) }
  | .clearCounters => { s with cnt6 := 0, cnt7 := 0 }
  | .count =>
    { s with
      cnt6 := countLow s.cfg.cntWidth (s.sampled.getLsbD 0) s.cnt6
      cnt7 := countLow s.cfg.cntWidth (s.sampled.getLsbD 1) s.cnt7 }
  | .burst k => { s with hidden := { s.hidden with burst := k } }
  | .quit => { s with hidden := { s.hidden with quit := true } }

/-- The register updates of a micro-step, done once: a Wait under way has them behind it. They stand even where
the exchange after them fails (log 11). -/
def enterMicro (m : MicroStep) (s : State) : State :=
  if s.hidden.waitLeft.isSome then s else m.pre.foldl applyUpdate s

/-- `SEQ` moves to the command's next micro-step (10_state R30). -/
def State.advance (s : State) : State :=
  match s.seq with
  | .exec c k => { s with seq := .exec c (k + 1) }
  | .ready => s
  | .faulting _ _ => s
  | .halt => s

/-- The ticks a Wait still has to last. -/
def waitTicks (d : Delay) (s : State) : Nat := s.hidden.waitLeft.getD (delayTicks s.cfg d)

/-- `Wait(n)` passes to its end (00_scope R10). -/
def State.endWait (n : Nat) (s : State) : State :=
  ({ s with ticks := s.ticks + n, hidden := { s.hidden with waitLeft := none } } : State).advance

/-- The command ends with its response (00_scope R10, 10_state R31, R32). -/
def finish (r : Report) (s : State) : State :=
  ({ s with seq := .ready, hidden := .idle } : State).respond (okResponse r s)

/-- One micro-step, whole. -/
def perform (m : MicroStep) (s : State) : Flow :=
  match m.prim with
  | .commit => (commit (enterMicro m s)).andThen fun t => .going t.advance
  | .sample => (takeSample (enterMicro m s)).andThen fun t => .going t.advance
  | .wait d => .going ((enterMicro m s).endWait (waitTicks d (enterMicro m s)))
  | .respond r => .going (finish r (enterMicro m s))

/-- One tick of a Wait; elsewhere no time passes (60_exceptions R228, log 12). -/
def performTick (m : MicroStep) (s : State) : State :=
  match m.prim with
  | .wait d =>
    if waitTicks d (enterMicro m s) ≤ 1 then
      (enterMicro m s).endWait (waitTicks d (enterMicro m s))
    else
      { enterMicro m s with
        ticks := s.ticks + 1
        hidden := { (enterMicro m s).hidden with waitLeft := some (waitTicks d (enterMicro m s) - 1) } }
  | .commit => s
  | .sample => s
  | .respond _ => s

/-- Micro-steps in order, up to the first fault. -/
def runSteps : List MicroStep → State → Flow
  | [], s => .going s
  | m :: ms, s => (perform m s).andThen (runSteps ms)

/-- A command: its checks given `DIRSET`, its micro-steps up to where it may depend on its sample, and the
micro-steps after that, by the sample. -/
structure Plan where
  check : Bool → Option FaultCode
  head : List MicroStep
  tail : Sensors → List MicroStep

/-- Micro-step `k` of a command (10_state R30). -/
def Plan.micro? (p : Plan) (k : Nat) (sample : Sensors) : Option MicroStep :=
  (p.head ++ p.tail sample)[k]?

/-- The configuration check of the prologue, then the command's own (60_exceptions R219, R213). -/
def whenConfigured (operands : Option FaultCode) (dirset : Bool) : Option FaultCode :=
  if dirset then operands else some .notConfigured

/-- The command is accepted: `SEQ` is EXEC(c, 0) and there are no hidden values yet (10_state R30, R31). -/
def State.start (c : Instr) (s : State) : State := { s with seq := .exec c 0, hidden := .idle }

/-- A command's micro-steps from the first to its response. -/
def runPlan (p : Plan) (s : State) : Flow :=
  (runSteps p.head s).andThen fun t => runSteps (p.tail t.sampled) t

/-- A raised fault is taken. -/
def Flow.settle : Flow → State
  | .going s => s
  | .raised e s => takeFault e s

/-- The prologue on a decoded command, then the command (60_exceptions R219; log 19). -/
def runCommand (c : Instr) (p : Plan) (s : State) : Host.Outcome State Fault Refusal :=
  if s.halted then .next (refuseHalted s)
  else match p.check s.dirset with
    | some e => .next (takeFault e s)
    | none => .next (runPlan p (s.start c)).settle

/-- Real time passed when a tick lasts `tick`, whatever durations are measured in (60_exceptions R228,
00_scope R8). -/
def State.elapsedAt {D : Type} [AddMonoid D] (tick : D) (s : State) : D := s.ticks • tick

/-- Real time passed, in seconds, at the configured `T_TICK` (log 7). -/
def State.elapsed (s : State) : Rat := s.elapsedAt s.cfg.tTick

/-! ### Building micro-steps -/

/-- `PortWrite(mask, value)`: the latch update and its commit, one micro-step (00_scope R10, R11). -/
def portWrite (mask value : Byte) : MicroStep := ⟨[.latch mask value], .commit⟩

/-- The Channel Model's call: the channel's own mask, and the mask to set or 0 to clear (40_port R109). -/
def channelWrite (i : Nat) (high : Bool) : MicroStep :=
  portWrite (channelMask i) (if high then channelMask i else 0#8)

/-- TGL's body for a channel: one commit (40_port R114). -/
def channelToggle (i : Nat) : MicroStep := ⟨[.toggle i], .commit⟩

/-- `ApplyBridge(p, c)`: first channel, then second (41_bridge R142, R143). -/
def applyBridge (p : Pair) (c : BridgeCommand) : List MicroStep :=
  [channelWrite (pairLo p) (bridgeTarget c).1, channelWrite (pairHi p) (bridgeTarget c).2]

/-- `Maneuver(m)` (42_maneuver R162): pair A before pair B in both phases (R163). -/
def maneuverSteps (m : Maneuver) : List MicroStep :=
  applyBridge .a (maneuverTable m).1 ++ applyBridge .b (maneuverTable m).2
    ++ [⟨[], .wait .cmd⟩]
    ++ applyBridge .a .coast ++ applyBridge .b .coast

/-- Puts a register update before the first of some micro-steps. -/
def withUpdate (u : RegUpdate) : List MicroStep → List MicroStep
  | [] => []
  | m :: ms => ⟨u :: m.pre, m.prim⟩ :: ms

/-- The response of a command that reports nothing. -/
def respondPlain : MicroStep := ⟨[], .respond .plain⟩

/-- A plan that never depends on a sample. -/
def straightPlan (check : Bool → Option FaultCode) (steps : List MicroStep) : Plan :=
  ⟨check, steps, fun _ => []⟩

/-! ### The port as memory -/

/-- The one address (20_memory R50, R57). -/
inductive Address where
  | port
  deriving DecidableEq, Repr

/-- `MemWrite(PORT, 1, v)` is `PortWrite(0x3F, v)` (00_scope R10). -/
def memWrite (addr : Address) (v : Byte) : MicroStep :=
  match addr with
  | .port => portWrite 0x3F#8 v

/-- `MemRead(PORT, 1)` is `PortRead()`: one sample; the value is `{S, OUT}` (00_scope R10, `portValue`). -/
def memRead (addr : Address) : MicroStep :=
  match addr with
  | .port => ⟨[], .sample⟩

end Sys2Proof.Machine
end

