-- ==== Sys2Proof/Machine/Bridge.lean ====
section
/-! DEFINITION. The Bridge Driver's command BRIDGE (41_bridge R144). -/

namespace Sys2Proof.Machine

/-- InvalidBridgeArgs when the pair or the command is unrecognized (41_bridge R144, 60_exceptions R215). -/
def bridgeCheck (a b : Byte) : Option FaultCode :=
  if (pairOfCode a).isNone || (bridgeCommandOfCode b).isNone then some .invalidBridgeArgs else none

/-- `ApplyBridge(A, B)` (R144); unrecognized operands have no micro-steps. -/
def bridgePlan (a b : Byte) : Plan :=
  straightPlan (whenConfigured (bridgeCheck a b))
    (match pairOfCode a, bridgeCommandOfCode b with
      | some p, some c => applyBridge p c ++ [respondPlain]
      | some _, none => []
      | none, some _ => []
      | none, none => [])

/-- BRIDGE (R144). -/
def execBridge (a b : Byte) (s : State) : Host.Outcome State Fault Refusal :=
  runCommand (.bridge a b) (bridgePlan a b) s

end Sys2Proof.Machine
end

