-- ==== Sys2Proof/Machine/Loops.lean ====
section
/-! DEFINITION. One cycle of the Navigation Loop (43_loops R181, NAVTICK) and one of the Manual Console Loop (R190, CONTICK with and without a key). -/

namespace Sys2Proof.Machine

/-! ### NAVTICK (R181) -/

/-- Repetitions `1 .. NAV_BURST` of pivotRight (R181); the repetition index is a hidden value (10_state R31). -/
def burstSteps : List MicroStep :=
  (List.range navBurst).flatMap fun k => withUpdate (.burst (k + 1)) (maneuverSteps .pivr)

/-- What a cycle does on its sample: channel 6 low, the burst; high, forward then pivotLeft (R181). -/
def navActions (sample : Sensors) : List MicroStep :=
  if sample.getLsbD 0 then maneuverSteps .fwd ++ maneuverSteps .pivl else burstSteps

/-- The cycle (R181): sample, act, sleep LOOP_DELAY, respond. -/
def navtickPlan : Plan where
  check := whenConfigured none
  head := [⟨[], .sample⟩]
  tail := fun sample => navActions sample ++ [⟨[], .wait .loop⟩, ⟨[], .respond .sense⟩]

/-- NAVTICK (R181). -/
def execNavtick (s : State) : Host.Outcome State Fault Refusal := runCommand .navtick navtickPlan s

/-! ### CONTICK (R190) -/

/-- The device writes of a dispatched action (R190). -/
def actionSteps : KeyAction → List MicroStep
  | .toggleChannel i => [channelToggle i]
  | .bridge p c => applyBridge p c
  | .resetCounters => []
  | .quit => []
  | .noAction => []

/-- The register updates of a dispatched action, which belong to the sample that follows (R190, 00_scope R13). -/
def actionUpdates : KeyAction → List RegUpdate
  | .toggleChannel _ => []
  | .bridge _ _ => []
  | .resetCounters => [.clearCounters]
  | .quit => [.quit]
  | .noAction => []

/-- After the sample: count, then the exit cleanup on Quit (R195), else the sleep (R190). -/
def cycleEnd : KeyAction → MicroStep
  | .quit => ⟨[.count, .latch 0x3F#8 0x00#8], .commit⟩
  | .toggleChannel _ => ⟨[.count], .wait .con⟩
  | .bridge _ _ => ⟨[.count], .wait .con⟩
  | .resetCounters => ⟨[.count], .wait .con⟩
  | .noAction => ⟨[.count], .wait .con⟩

/-- One console cycle for an action (R190). -/
def consolePlan (act : KeyAction) : Plan :=
  straightPlan (whenConfigured none)
    (actionSteps act ++ [⟨actionUpdates act, .sample⟩, cycleEnd act, ⟨[], .respond .console⟩])

/-- No key available (R190, R196). -/
def contickPlan : Plan := consolePlan .noAction

/-- CONTICK, no key (R190). -/
def execContick (s : State) : Host.Outcome State Fault Refusal := runCommand .contick contickPlan s

/-- A key, dispatched (R190, R191). -/
def contickKeyPlan (c : Config) (key : Byte) : Plan := consolePlan (dispatchKey c.keymap key)

/-- CONTICK with a key (R190). -/
def execContickKey (key : Byte) (s : State) : Host.Outcome State Fault Refusal :=
  runCommand (.contickKey key) (contickKeyPlan s.cfg key) s

end Sys2Proof.Machine
end

