-- ==== Sys2Proof/Machine/Maneuvers.lean ====
section
/-! DEFINITION. The Maneuver Sequencer's command MANV (42_maneuver R162). -/

namespace Sys2Proof.Machine

/-- `Maneuver(A[1:0])` (R162). -/
def manvPlan (a : Byte) : Plan :=
  straightPlan (whenConfigured none) (maneuverSteps (maneuverOfCode a) ++ [respondPlain])

/-- MANV (R162). -/
def execManv (a : Byte) (s : State) : Host.Outcome State Fault Refusal :=
  runCommand (.manv a) (manvPlan a) s

end Sys2Proof.Machine
end

