-- ==== Sys2Proof/Machine/Port.lean ====
section
/-! DEFINITION. The Port Register and Channel Model commands (40_port): SETDIR, WRITE, READ, SET, CLR, TGL, SENSE, ZEROALL. -/

namespace Sys2Proof.Machine

/-! ### SETDIR (R101) -/

/-- DirReconfigure before InvalidDirMask (40_port R101, 60_exceptions R219). -/
def setdirCheck (a : Byte) (dirset : Bool) : Option FaultCode :=
  if dirset then some .dirReconfigure
  else if a = dirMask then none
  else some .invalidDirMask

/-- `DIR <- 0x3F; DIRSET <- 1; Commit()` (R101). -/
def setdirPlan (a : Byte) : Plan :=
  straightPlan (setdirCheck a) [⟨[.setDir], .commit⟩, respondPlain]

/-- SETDIR (R101). -/
def execSetdir (a : Byte) (s : State) : Host.Outcome State Fault Refusal :=
  runCommand (.setdir a) (setdirPlan a) s

/-! ### WRITE (R104) -/

/-- InvalidChannel where the mask names an input channel; else `PortWrite(A, B)` (R104). -/
def writePlan (mask value : Byte) : Plan :=
  straightPlan (whenConfigured (if namesInputs mask then some .invalidChannel else none))
    [portWrite mask value, respondPlain]

/-- WRITE (R104). -/
def execWrite (mask value : Byte) (s : State) : Host.Outcome State Fault Refusal :=
  runCommand (.write mask value) (writePlan mask value) s

/-! ### READ (R107) -/

/-- `PortRead()`, reported in `data` (R107). -/
def readPlan : Plan :=
  straightPlan (whenConfigured none) [memRead .port, ⟨[], .respond .port⟩]

/-- READ (R107). -/
def execRead (s : State) : Host.Outcome State Fault Refusal := runCommand .read readPlan s

/-! ### SET, CLR, TGL (R110, R112, R114) -/

/-- "channel index outside 0–5 requested for a write operation" (60_exceptions R214). -/
def channelCheck (a : Byte) : Option FaultCode :=
  if 5 < a.toNat then some .invalidChannel else none

/-- `PortWrite(1 << A, 1 << A)` (R110). -/
def setPlan (a : Byte) : Plan :=
  straightPlan (whenConfigured (channelCheck a)) [channelWrite a.toNat true, respondPlain]

/-- SET (R110). -/
def execSet (a : Byte) (s : State) : Host.Outcome State Fault Refusal :=
  runCommand (.set a) (setPlan a) s

/-- `PortWrite(1 << A, 0)` (R112). -/
def clrPlan (a : Byte) : Plan :=
  straightPlan (whenConfigured (channelCheck a)) [channelWrite a.toNat false, respondPlain]

/-- CLR (R112). -/
def execClr (a : Byte) (s : State) : Host.Outcome State Fault Refusal :=
  runCommand (.clr a) (clrPlan a) s

/-- The latch bit's complement, one commit (R114). -/
def tglPlan (a : Byte) : Plan :=
  straightPlan (whenConfigured (channelCheck a)) [channelToggle a.toNat, respondPlain]

/-- TGL (R114). -/
def execTgl (a : Byte) (s : State) : Host.Outcome State Fault Refusal :=
  runCommand (.tgl a) (tglPlan a) s

/-! ### SENSE (R119) -/

/-- One sample, reported in `sense` (R119). -/
def sensePlan : Plan :=
  straightPlan (whenConfigured none) [⟨[], .sample⟩, ⟨[], .respond .sense⟩]

/-- SENSE (R119). -/
def execSense (s : State) : Host.Outcome State Fault Refusal := runCommand .sense sensePlan s

/-! ### ZEROALL (R117) -/

/-- `PortWrite(0x3F, 0x00)` (R117), which is `MemWrite(PORT, 1, 0)` (00_scope R10). -/
def zeroallPlan : Plan :=
  straightPlan (whenConfigured none) [memWrite .port 0x00#8, respondPlain]

/-- ZEROALL (R117). -/
def execZeroall (s : State) : Host.Outcome State Fault Refusal := runCommand .zeroall zeroallPlan s

end Sys2Proof.Machine
end

