-- ==== Sys2Proof/Machine/Sequencer.lean ====
section
/-! DEFINITION. The sequencer between commands and inside one: accepting a word (60_exceptions R219), the micro-step at EXEC(c, k) (10_state R30), a byte transport (20_memory R53), and what the controller does next on the host's moves (10_state R33). -/

namespace Sys2Proof.Machine

/-- The micro-steps of a command, as its own rule gives them. -/
def planOf (cfg : Config) : Instr → Plan
  | .setdir a => setdirPlan a
  | .write m v => writePlan m v
  | .read => readPlan
  | .set a => setPlan a
  | .clr a => clrPlan a
  | .tgl a => tglPlan a
  | .bridge a b => bridgePlan a b
  | .manv a => manvPlan a
  | .sense => sensePlan
  | .navtick => navtickPlan
  | .contick => contickPlan
  | .contickKey k => contickKeyPlan cfg k
  | .zeroall => zeroallPlan

/-- A fault is raised: its cleanup is the next micro-step (log 10). -/
def State.raise (e : FaultCode) (s : State) : State := { s with seq := .faulting e false }

/-- What becomes of a raised fault when the controller goes one micro-step at a time. -/
def Flow.pause : Flow → State
  | .going s => s
  | .raised e s => s.raise e

/-- A word is accepted and its prologue done; its micro-steps are still to come (R219, 10_state R30). -/
def acceptPaused (w : Word) (s : State) : State :=
  if s.halted then refuseHalted s
  else match decode w with
    | .error _ => s.raise .illegalCommand
    | .ok i =>
      match (planOf s.cfg i).check s.dirset with
      | some e => s.raise e
      | none => s.start i

/-- The micro-step the controller is about to perform at EXEC(c, k) (10_state R30). -/
def currentMicro (c : Instr) (k : Nat) (s : State) : Option MicroStep :=
  (planOf s.cfg c).micro? k s.sampled

/-- The controller performs micro-step `k` of command `c` (10_state R30). -/
def microStep (c : Instr) (k : Nat) (s : State) : Host.Outcome State Fault Refusal :=
  match currentMicro c k s with
  | some m => .next (perform m s).pause
  | none => .fault .noMicroStep

/-- One tick of the timebase at micro-step `k` of command `c` (60_exceptions R228). -/
def microTick (c : Instr) (k : Nat) (s : State) : Host.Outcome State Fault Refusal :=
  match currentMicro c k s with
  | some m => .next (performTick m s)
  | none => .fault .noMicroStep

/-- The next micro-step of a fault entry (60_exceptions R220): the cleanup commit, then the response;
without a direction mask there is no commit and the response is the only one. -/
def faultMicro (e : FaultCode) (cleaned : Bool) (s : State) : State :=
  if cleaned then faultRespond e s
  else if s.dirset then { faultCleanup e s with seq := .faulting e true }
  else takeFault e s

/-- What the controller does next: all of it, or the execution of a decoded command. -/
inductive Action where
  | done (o : Host.Outcome State Fault Refusal)
  | run (i : Instr) (s : State)

/-- A word is accepted, to be executed to its response (R219). A decoded command's own prologue stands in
its meaning; an illegal word faults here. -/
def acceptWord (w : Word) (s : State) : Action :=
  if s.halted then .done (.next (refuseHalted s))
  else match decode w with
    | .error _ => .done (.next (takeFault .illegalCommand s))
    | .ok i => .run i s

/-- A byte of a byte transport: four bytes make a word, opcode first (30_encoding R71, 20_memory R53). -/
def acceptByte (b : Byte) (s : State) : Action :=
  match s.rx ++ [b] with
  | op :: a :: b' :: c :: rest => acceptWord (mkWord op a b' c) { s with rx := rest }
  | [] => .done (.next { s with rx := [] })
  | [x] => .done (.next { s with rx := [x] })
  | [x, y] => .done (.next { s with rx := [x, y] })
  | [x, y, z] => .done (.next { s with rx := [x, y, z] })

/-- Between commands (`SEQ` = READY or HALT): a word is accepted (10_state R33); with no move the controller
waits (93 I20). -/
def actIdle (s : State) : Action :=
  match s.moves with
  | [] => .done (.next s)
  | .word w :: ms => acceptWord w { s with moves := ms }
  | .offer w :: ms => .done (.next (acceptPaused w { s with moves := ms }))
  | .byte b :: ms => acceptByte b { s with moves := ms }
  | .go :: ms => .done (.next { s with moves := ms })
  | .tick :: ms => .done (.next { s with moves := ms })
  | .reset :: ms => .done (.next (applyReset { s with moves := ms }))

/-- Inside a command: reset takes precedence (70 R240), a word has to wait (10_state R33), and the
controller goes on. -/
def actExec (c : Instr) (k : Nat) (s : State) : Action :=
  match s.moves with
  | [] => .done (microStep c k s)
  | .word _ :: _ => .done (microStep c k s)
  | .offer _ :: _ => .done (microStep c k s)
  | .byte _ :: _ => .done (microStep c k s)
  | .go :: ms => .done (microStep c k { s with moves := ms })
  | .tick :: ms => .done (microTick c k { s with moves := ms })
  | .reset :: ms => .done (.next (applyReset { s with moves := ms }))

/-- Inside fault entry: as `actExec`; no Wait is under way, so a tick changes nothing. -/
def actFaulting (e : FaultCode) (cleaned : Bool) (s : State) : Action :=
  match s.moves with
  | [] => .done (.next (faultMicro e cleaned s))
  | .word _ :: _ => .done (.next (faultMicro e cleaned s))
  | .offer _ :: _ => .done (.next (faultMicro e cleaned s))
  | .byte _ :: _ => .done (.next (faultMicro e cleaned s))
  | .go :: ms => .done (.next (faultMicro e cleaned { s with moves := ms }))
  | .tick :: ms => .done (.next { s with moves := ms })
  | .reset :: ms => .done (.next (applyReset { s with moves := ms }))

/-- What the controller does next, by its position. -/
def act (s : State) : Action :=
  match s.seq with
  | .ready => actIdle s
  | .halt => actIdle s
  | .exec c k => actExec c k s
  | .faulting e cleaned => actFaulting e cleaned s

/-- The host's next move is this word, and the controller is free to accept it (log 20). -/
def State.offerWord (w : Word) (s : State) : State :=
  { s with
    moves := .word w :: s.moves
    seq :=
      match s.seq with
      | .ready => .ready
      | .halt => .halt
      | .exec _ _ => .ready
      | .faulting _ _ => .ready }

/-! ### The signal view (10_state R34, informative) -/

/-- `cmd_ready`: 1 iff `SEQ` is READY or HALT. -/
def State.cmdReady (s : State) : Bool :=
  match s.seq with
  | .ready => true
  | .halt => true
  | .exec _ _ => false
  | .faulting _ _ => false

/-- `pin_oe`: 1 iff `PINS_OUT` is `Driven(_)`. -/
def State.pinOe (s : State) : Bool :=
  match s.pinsOut with
  | .driven _ => true
  | .undriven => false
  | .unknown => false

/-- `pin_out`: the value of `PINS_OUT = Driven(v)`. -/
def State.pinOut (s : State) : Option Latch :=
  match s.pinsOut with
  | .driven v => some v
  | .undriven => none
  | .unknown => none

end Sys2Proof.Machine
end

