-- ==== Sys2Proof/Machine/Dispatch.lean ====
section
/-! DEFINITION. The meaning of every command, one arm per constructor of Instr. -/

namespace Sys2Proof.Machine

def exec (i : Instr) (s : State) : Host.Outcome State Fault Refusal :=
  match i with
  | .setdir a => Sys2Proof.Machine.execSetdir a s
  | .write mask value => Sys2Proof.Machine.execWrite mask value s
  | .read => Sys2Proof.Machine.execRead s
  | .set a => Sys2Proof.Machine.execSet a s
  | .clr a => Sys2Proof.Machine.execClr a s
  | .tgl a => Sys2Proof.Machine.execTgl a s
  | .bridge a b => Sys2Proof.Machine.execBridge a b s
  | .manv a => Sys2Proof.Machine.execManv a s
  | .sense => Sys2Proof.Machine.execSense s
  | .navtick => Sys2Proof.Machine.execNavtick s
  | .contick => Sys2Proof.Machine.execContick s
  | .contickKey key => Sys2Proof.Machine.execContickKey key s
  | .zeroall => Sys2Proof.Machine.execZeroall s

end Sys2Proof.Machine
end

