-- ==== Sys2Proof/Machine/Step.lean ====
section
/-! DEFINITION. One step: the controller's next action on the host's next move; a decoded command is executed by `exec`. -/

namespace Sys2Proof.Machine

/-- One step of the machine. -/
def step (s : State) : Host.Outcome State Fault Refusal :=
  match act s with
  | .done o => o
  | .run i t => exec i t

/-- The state whose very next step accepts and executes the given instruction: the host's next move offers
its word. `nbits` and `w` are numbered as spec/opcode_table.json numbers them (log 2, log 20). -/
def State.withFetchWord (s : State) (nbits w : Nat) : State :=
  s.offerWord (BitVec.ofNat 32 (w % 2 ^ nbits))

end Sys2Proof.Machine
end

