-- ==== Sys2Proof/Machine/Assembler.lean ====
section
/-! DEFINITION. The assembler's lines (30_encoding R83) and the pseudo-instructions (R84) as data, with the command each stands for. The lines' text (commas, comments, number spelling) is not modelled (log 22). -/

namespace Sys2Proof.Machine

/-- A pair operand: a name or a number (R83). -/
inductive PairOperand where
  | name (p : Pair)
  | number (a : Byte)
  deriving DecidableEq, Repr

/-- A bridge command operand: a name or a number (R83). -/
inductive CommandOperand where
  | name (c : BridgeCommand)
  | number (b : Byte)
  deriving DecidableEq, Repr

/-- A maneuver operand: a name, or a number 0 to 3 (R83). -/
inductive ManeuverOperand where
  | name (m : Maneuver)
  | number (n : Fin 4)
  deriving DecidableEq, Repr

/-- One line (R83, R84). -/
inductive AsmLine where
  | setdir (m : Byte)
  | write (m v : Byte)
  | read
  | set (i : Byte)
  | clr (i : Byte)
  | tgl (i : Byte)
  | bridge (p : PairOperand) (c : CommandOperand)
  | manv (n : ManeuverOperand)
  | sense
  | navtick
  | contick
  | contickKey (k : Byte)
  | zeroall
  | forward
  | backward
  | pivotLeft
  | pivotRight
  | poll
  | key (k : Byte)
  deriving DecidableEq, Repr

/-- The code of a pair operand (R75). -/
def PairOperand.code : PairOperand → Byte
  | .name .a => 0#8
  | .name .b => 1#8
  | .name .c => 2#8
  | .number a => a

/-- The code of a bridge command operand (R76). -/
def CommandOperand.code : CommandOperand → Byte
  | .name .left => 0#8
  | .name .right => 1#8
  | .name .brake => 2#8
  | .name .coast => 3#8
  | .number b => b

/-- The code of a maneuver operand (R77). -/
def ManeuverOperand.code : ManeuverOperand → Byte
  | .name .fwd => 0#8
  | .name .bwd => 1#8
  | .name .pivl => 2#8
  | .name .pivr => 3#8
  | .number n => BitVec.ofNat 8 n.val

/-- The command a line stands for (R83, R84). -/
def AsmLine.instr : AsmLine → Instr
  | .setdir m => .setdir m
  | .write m v => .write m v
  | .read => .read
  | .set i => .set i
  | .clr i => .clr i
  | .tgl i => .tgl i
  | .bridge p c => .bridge p.code c.code
  | .manv n => .manv n.code
  | .sense => .sense
  | .navtick => .navtick
  | .contick => .contick
  | .contickKey k => .contickKey k
  | .zeroall => .zeroall
  | .forward => .manv (ManeuverOperand.name .fwd).code
  | .backward => .manv (ManeuverOperand.name .bwd).code
  | .pivotLeft => .manv (ManeuverOperand.name .pivl).code
  | .pivotRight => .manv (ManeuverOperand.name .pivr).code
  | .poll => .contick
  | .key k => .contickKey k

/-- The word a line assembles to (R83). -/
def AsmLine.word (l : AsmLine) : Word := encode l.instr

end Sys2Proof.Machine
end

