-- ==== Sys2Proof/Safety.lean ====
section
/-! DEFINITION. The terms claims are stated in: launch premises (10_state R39), the end of a run and the host's duties (R37, 70 R244 to R246), what a command leaves, and the invariant of every run. -/

namespace Sys2Proof.Machine

/-! ### Launch premises (10_state R39). `OneHost` holds of every state: there is one stream of moves (log 17). -/

/-- `Reset`: the controller's state is the reset state of 70 R241, whatever DIR holds. -/
def State.isReset (s : State) : Prop :=
  s.out = 0#6 ∧ s.dirset = false ∧ s.pinsOut = .undriven ∧ s.cnt6 = 0 ∧ s.cnt7 = 0
    ∧ s.halted = false ∧ s.err = 0#4 ∧ s.seq = .ready ∧ s.hidden = .idle

/-- `Configured`. -/
def State.configured (s : State) : Prop :=
  s.dirset = true ∧ s.halted = false ∧ s.err = 0#4 ∧ s.seq = .ready ∧ s.pinsOut = .driven s.out

/-- `NoFault`: `HALTED` = 0 throughout the run, in every state it goes through. -/
def State.noFault (s : State) : Prop :=
  ∀ (k : Nat) (t : State), Host.Core.run core k s = .next t → t.halted = false

/-- `AllCoast`. -/
def State.allCoast (s : State) : Prop := s.out = 0#6

/-- A command can be executed: not halted, direction mask set (60_exceptions R219). -/
def State.running (s : State) : Prop := s.halted = false ∧ s.dirset = true

/-- The next `n` exchanges all succeed. -/
def State.exchangesSucceed (n : Nat) (s : State) : Prop :=
  ∀ k, k < n → exchangeSucceeds (s.exchangeAt k) = true

/-! ### What a command leaves -/

/-- `s` after one successful commit of a latch value. -/
def State.committed (v : Latch) (s : State) : State :=
  { s with
    out := v, pinsOut := .driven v
    env := s.env.drop 1, draws := s.draws + 1
    trace := s.trace ++ [⟨.driven v, s.ticks⟩] }

/-- `s` after successful commits of latch values, in order, all at the same tick. -/
def State.committedAll (vs : List Latch) (s : State) : State :=
  vs.foldl (fun t v => t.committed v) s

/-- `s` after one successful sample: the pins re-driven, no trace entry (10_state R35). -/
def State.sampledOnce (s : State) : State :=
  { s with pinsOut := .driven s.out, env := s.env.drop 1, draws := s.draws + 1 }

/-- `s` after `n` ticks. -/
def State.waited (n : Nat) (s : State) : State := { s with ticks := s.ticks + n }

/-- `s` after a response: the controller is ready again and keeps no hidden value. -/
def State.answered (r : Response) (s : State) : State :=
  { s with seq := .ready, hidden := .idle, responses := s.responses ++ [r] }

/-- `s` after a failed exchange (60_exceptions R224). -/
def State.exchangeLost (s : State) : State :=
  { s with
    pinsOut := .unknown
    env := s.env.drop 1, draws := s.draws + 1
    trace := s.trace ++ [⟨.unknown, s.ticks⟩] }

/-- The latch with channel `i` at `high` and every other channel as it was (40_port R109). -/
def setChannel (out : Latch) (i : Nat) (high : Bool) : Latch :=
  if high then out ||| (1#6 <<< i) else out &&& ~~~(1#6 <<< i)

/-- `s` after a latch update whose commit failed: the latch keeps the new value (60_exceptions R216). -/
def State.commitFailed (v : Latch) (s : State) : State := ({ s with out := v } : State).exchangeLost

/-- The latch after the two channel calls of an ApplyBridge, one by one (41_bridge R143). -/
def bridgeValues (out : Latch) (p : Pair) (c : BridgeCommand) : List Latch :=
  [setChannel out (pairLo p) (bridgeTarget c).1,
    setChannel (setChannel out (pairLo p) (bridgeTarget c).1) (pairHi p) (bridgeTarget c).2]

/-- The latch after a list of bridge operations, commit by commit. -/
def bridgeRun (out : Latch) : List (Pair × BridgeCommand) → List Latch
  | [] => []
  | (p, c) :: rest =>
    bridgeValues out p c
      ++ bridgeRun (setChannel (setChannel out (pairLo p) (bridgeTarget c).1) (pairHi p) (bridgeTarget c).2) rest

/-- The eight values a maneuver commits (42_maneuver R162). -/
def maneuverValues (out : Latch) (m : Maneuver) : List Latch :=
  bridgeRun out [(.a, (maneuverTable m).1), (.b, (maneuverTable m).2), (.a, .coast), (.b, .coast)]

/-- `s` after the first `k` commits of a maneuver; the hold lies between commits 4 and 5 (42_maneuver R162). -/
def State.maneuverPart (m : Maneuver) (k : Nat) (s : State) : State :=
  if k ≤ 4 then s.committedAll ((maneuverValues s.out m).take k)
  else ((s.committedAll ((maneuverValues s.out m).take 4)).waited s.cfg.cmdDelay).committedAll
    (((maneuverValues s.out m).take k).drop 4)

/-- `s` after a maneuver whose eight commits succeed. -/
def State.maneuvered (m : Maneuver) (s : State) : State := s.maneuverPart m 8

/-- The latch value of a maneuver's commit `k`, from 0. -/
def maneuverValue (out : Latch) (m : Maneuver) (k : Nat) : Latch := ((maneuverValues out m)[k]?).getD 0#6

/-- `s` in a maneuver whose commit `k`, from 0, failed; the hold is over before commit 4 (42_maneuver R166). -/
def State.maneuverFailed (m : Maneuver) (k : Nat) (s : State) : State :=
  (if k = 4 then (s.maneuverPart m 4).waited s.cfg.cmdDelay else s.maneuverPart m k).commitFailed
    (maneuverValue s.out m k)

/-- The maneuvers of a navigation cycle on its sample (43_loops R181). -/
def cycleManeuvers (sample : Sensors) : List Maneuver :=
  if sample.getLsbD 0 then [.fwd, .pivl] else [.pivr, .pivr, .pivr, .pivr, .pivr, .pivr]

/-- `s` after maneuvers whose commits all succeed. -/
def State.maneuveredAll (ms : List Maneuver) (s : State) : State := ms.foldl (fun t m => t.maneuvered m) s

/-- `s` after a console cycle counted its sample: a counter rises where its channel reads low (43_loops R190). -/
def State.counted (sample : Sensors) (s : State) : State :=
  { s with
    cnt6 := if sample.getLsbD 0 then s.cnt6 else countUp s.cfg.cntWidth s.cnt6
    cnt7 := if sample.getLsbD 1 then s.cnt7 else countUp s.cfg.cntWidth s.cnt7 }

/-- `s` with both counters 0. -/
def State.countersCleared (s : State) : State := { s with cnt6 := 0, cnt7 := 0 }

/-- A console cycle's report of the counters it leaves (10_state R32). -/
def State.consoleReport (sample : Sensors) (quit : Bool) (s : State) : Response :=
  ⟨0#4, s.err, 0#8, sample, s.cnt6, s.cnt7, quit⟩

/-- Ticks, commits and samples of a command that completes without fault (70 R258). `sample` is the sample
it takes, if any. -/
def commandCost (cfg : Config) (i : Instr) (sample : Sensors) : Nat × Nat × Nat :=
  match i with
  | .setdir _ => (0, 1, 0)
  | .write _ _ => (0, 1, 0)
  | .read => (0, 0, 1)
  | .set _ => (0, 1, 0)
  | .clr _ => (0, 1, 0)
  | .tgl _ => (0, 1, 0)
  | .bridge _ _ => (0, 2, 0)
  | .manv _ => (cfg.cmdDelay, 8, 0)
  | .sense => (0, 0, 1)
  | .navtick =>
    if sample.getLsbD 0 then (2 * cfg.cmdDelay + cfg.loopDelay, 16, 1)
    else (6 * cfg.cmdDelay + cfg.loopDelay, 48, 1)
  | .contick => (cfg.conDelay, 0, 1)
  | .contickKey key =>
    match dispatchKey cfg.keymap key with
    | .toggleChannel _ => (cfg.conDelay, 1, 1)
    | .bridge _ _ => (cfg.conDelay, 2, 1)
    | .resetCounters => (cfg.conDelay, 0, 1)
    | .noAction => (cfg.conDelay, 0, 1)
    | .quit => (0, 1, 1)
  | .zeroall => (0, 1, 0)

/-- The rows of 30_encoding R78 with an action: each letter in both cases. -/
def keyTable (k : Keymap) : List (Byte × KeyAction) :=
  [(0x31#8, .toggleChannel 0), (0x32#8, .toggleChannel 1), (0x33#8, .toggleChannel 2),
    (0x34#8, .toggleChannel 3), (0x35#8, .toggleChannel 4), (0x36#8, .toggleChannel 5),
    (0x41#8, .bridge .a .left), (0x61#8, .bridge .a .left),
    (0x53#8, .bridge .a .right), (0x73#8, .bridge .a .right),
    (0x5A#8, .bridge .a .coast), (0x7A#8, .bridge .a .coast),
    (0x58#8, .bridge .a .brake), (0x78#8, .bridge .a .brake),
    (k.bLeft, .bridge .b .left), (k.bLeft + 0x20#8, .bridge .b .left),
    (k.bRight, .bridge .b .right), (k.bRight + 0x20#8, .bridge .b .right),
    (k.bCoast, .bridge .b .coast), (k.bCoast + 0x20#8, .bridge .b .coast),
    (k.bBrake, .bridge .b .brake), (k.bBrake + 0x20#8, .bridge .b .brake),
    (k.cLeft, .bridge .c .left), (k.cLeft + 0x20#8, .bridge .c .left),
    (k.cRight, .bridge .c .right), (k.cRight + 0x20#8, .bridge .c .right),
    (k.cCoast, .bridge .c .coast), (k.cCoast + 0x20#8, .bridge .c .coast),
    (k.cBrake, .bridge .c .brake), (k.cBrake + 0x20#8, .bridge .c .brake),
    (0x30#8, .resetCounters),
    (0x51#8, .quit), (0x71#8, .quit), (0x1B#8, .quit)]

/-! ### End of a run and the host's duties -/

/-- A run is over: no command in progress and no further word (10_state R37). -/
def State.runOver (s : State) : Prop := s.cmdReady = true ∧ s.moves = []

/-- The shutdown duty at the end of a run: the motors are left off (70 R246). -/
def State.shutdownMet (s : State) : Prop := s.runOver → s.allCoast

/-- The boot duty on a stream of moves (70 R244, R245): after each reset the first word is `SETDIR 0x3F`, and
no other SETDIR follows before the next reset. `booted` says whether that first word is behind. Stated of
hosts that move by words; a byte transport's host is left out (log 25). -/
def bootDuty : Bool → List Move → Bool
  | _, [] => true
  | _, .reset :: ms => bootDuty false ms
  | booted, .word w :: ms => (if booted then wordOp w != 0x01#8 else w == 0x013F0000#32) && bootDuty true ms
  | booted, .offer w :: ms => (if booted then wordOp w != 0x01#8 else w == 0x013F0000#32) && bootDuty true ms
  | booted, .go :: ms => bootDuty booted ms
  | booted, .tick :: ms => bootDuty booted ms
  | _, .byte _ :: _ => false

/-- The direction mask is set, or the SETDIR that sets it is accepted and stands before its commit. -/
def State.booted (s : State) : Bool :=
  s.dirset
    || (match s.seq with
        | .exec c _ => c == .setdir dirMask
        | .ready => false
        | .faulting _ _ => false
        | .halt => false)

/-- A fault a host that boots as 70 R244 and R245 say never meets. -/
def FaultCode.isConfiguration : FaultCode → Bool
  | .notConfigured => true
  | .dirReconfigure => true
  | .invalidDirMask => true
  | .invalidChannel => false
  | .invalidBridgeArgs => false
  | .deviceUnavailable => false
  | .illegalCommand => false

/-- An ERR value that is none of the three configuration faults' codes. -/
def errFree (x : Nibble) : Prop := ∀ e : FaultCode, e.isConfiguration = true → x ≠ e.code

/-- The host keeps the boot duty from here on, and has met no configuration fault. -/
def State.bootDutyMet (s : State) : Prop :=
  bootDuty s.booted s.moves = true
    ∧ (match s.seq with
        | .ready => True
        | .exec _ _ => True
        | .faulting e _ => s.dirset = true ∧ e.isConfiguration = false
        | .halt => s.dirset = true ∧ errFree s.err)

/-- A move that brings the controller a command word or a byte of one. -/
def Move.brings : Move → Bool
  | .word _ => true
  | .offer _ => true
  | .byte _ => true
  | .go => false
  | .tick => false
  | .reset => false

/-! ### The invariant -/

/-- A counter fits its width (10_state R28). -/
def counterFits (width : Option Nat) (x : Nat) : Prop := ∀ w, width = some w → x ≤ 2 ^ w - 1

/-- A command's operands raise no fault (60_exceptions R219, its last line). -/
def operandsLegal (cfg : Config) (c : Instr) : Prop :=
  (planOf cfg c).check false = none ∨ (planOf cfg c).check true = none

/-- The pins agree with the latch, position by position (00_scope R11, 60_exceptions R220, R224). -/
def pinsAgree (s : State) : Prop :=
  if s.dirset then
    match s.seq with
    | .ready => s.pinsOut = .driven s.out
    | .exec _ _ => s.pinsOut = .driven s.out
    | .faulting _ false => s.pinsOut = .driven s.out ∨ s.pinsOut = .unknown
    | .faulting _ true => s.out = 0#6 ∧ (s.pinsOut = .driven 0#6 ∨ s.pinsOut = .unknown)
    | .halt => s.out = 0#6 ∧ (s.pinsOut = .driven 0#6 ∨ s.pinsOut = .unknown)
  else s.out = 0#6 ∧ s.pinsOut = .undriven

/-- HALTED and ERR agree with SEQ (10_state R29, R30, 60_exceptions R220, R221). -/
def statusAgrees (s : State) : Prop :=
  match s.seq with
  | .ready => s.halted = false ∧ s.err = 0#4
  | .exec _ _ => s.halted = false ∧ s.err = 0#4
  | .faulting _ false => s.halted = false ∧ s.err = 0#4
  | .faulting e true => s.halted = false ∧ s.err = e.code
  | .halt => s.halted = true ∧ ∃ e : FaultCode, s.err = e.code

/-- A command in progress stands before one of its own micro-steps, with operands that raise no fault, and
with the direction mask set, or about to be (10_state R30). Between commands, and once a fault's cleanup is
behind it, no hidden value is kept (R31). -/
def positionValid (s : State) : Prop :=
  match s.seq with
  | .exec c k =>
    operandsLegal s.cfg c ∧ (currentMicro c k s).isSome = true
      ∧ (s.dirset = true ∨ (c = .setdir dirMask ∧ k = 0))
      ∧ (s.hidden.waitLeft.isSome = true → ∃ m d, currentMicro c k s = some m ∧ m.prim = .wait d)
  | .faulting _ false => True
  | .faulting _ true => s.dirset = true ∧ s.hidden = .idle
  | .ready => s.hidden = .idle
  | .halt => s.hidden = .idle

/-- What every state of every run meets. -/
structure State.Inv (s : State) : Prop where
  /-- `DIRSET` = 1 means `DIR` = 0x3F (10_state R26). -/
  dirMask : s.dirset = true → s.dir = 0x3F#8
  pins : pinsAgree s
  status : statusAgrees s
  position : positionValid s
  /-- The counters fit CNT_WIDTH (10_state R28). -/
  counters : counterFits s.cfg.cntWidth s.cnt6 ∧ counterFits s.cfg.cntWidth s.cnt7
  /-- A partial word has at most three bytes (20_memory R53). -/
  partialWord : s.rx.length ≤ 3

end Sys2Proof.Machine
end

