-- ==== Sys2Proof/Certificates/Slice0/Obligations.lean ====
section
/-! DEFINITION. The statements for the provers. Each docstring names the rule of spec/ it formalises. -/

open Sys2Proof Sys2Proof.Machine

/-! ### Encoding -/

/-- 30_encoding R74, R71: decoding a command's word, or its four bytes followed by anything, gives it back. -/
def Obligations.DecodeEncodeRoundTrip : Prop :=
  ∀ i : Instr, i.WellFormed →
    decode (encode i) = .ok i
      ∧ ∀ rest : List Byte, decodeBytes (wordBytes (encode i) ++ rest) = .ok (i, rest)

/-- 30_encoding R74, R79: a word that decodes is the word of the command it decodes to. -/
def Obligations.EncodeInvertsDecode : Prop :=
  ∀ (w : Word) (i : Instr), decode w = .ok i → i.WellFormed ∧ encode i = w

/-- 30_encoding R81: exactly one row of the opcode map and its command, or no row and illegal. -/
def Obligations.EveryWordOneRowOrIllegal : Prop :=
  ∀ w : Word,
    (∃ i, decode w = .ok i ∧ opcodeRows.filter (fun r => r.selects w) = [i.row])
      ∨ ((∃ e, decode w = .error e) ∧ opcodeRows.filter (fun r => r.selects w) = [])

/-- 30_encoding R79: which words are illegal, field by field, and that such a word raises IllegalCommand. -/
def Obligations.IllegalWordsFault : Prop :=
  (∀ w : Word, (∃ e, decode w = .error e) ↔
      (wordOp w).toNat = 0 ∨ 0x0D ≤ (wordOp w).toNat
        ∨ wordC w ≠ 0#8
        ∨ ((wordOp w).toNat ∈ [0x01, 0x04, 0x05, 0x06, 0x08] ∧ wordB w ≠ 0#8)
        ∨ ((wordOp w).toNat ∈ [0x03, 0x09, 0x0A, 0x0C] ∧ (wordA w ≠ 0#8 ∨ wordB w ≠ 0#8))
        ∨ ((wordOp w).toNat = 0x08 ∧ (wordA w).extractLsb' 2 6 ≠ 0#6)
        ∨ ((wordOp w).toNat = 0x0B ∧ (2 ≤ (wordB w).toNat ∨ (wordB w = 0#8 ∧ wordA w ≠ 0#8))))
    ∧ ∀ (s : State) (w : Word) (ms : List Move) (e : DecodeError),
        s.seq = .ready → s.halted = false → s.moves = .word w :: ms → decode w = .error e →
        step s = .next (takeFault .illegalCommand { s with moves := ms })

/-- 30_encoding R80: out-of-range operands decode, and fault when the command executes, before any other change. -/
def Obligations.OutOfRangeOperandsFault : Prop :=
  (∀ (s : State) (a : Byte), s.running → 6 ≤ a.toNat →
      (decode (encode (.set a)) = .ok (.set a) ∧ exec (.set a) s = .next (takeFault .invalidChannel s))
        ∧ (decode (encode (.clr a)) = .ok (.clr a) ∧ exec (.clr a) s = .next (takeFault .invalidChannel s))
        ∧ (decode (encode (.tgl a)) = .ok (.tgl a) ∧ exec (.tgl a) s = .next (takeFault .invalidChannel s)))
    ∧ (∀ (s : State) (a b : Byte), s.running → a.extractLsb' 6 2 ≠ 0#2 →
        decode (encode (.write a b)) = .ok (.write a b)
          ∧ exec (.write a b) s = .next (takeFault .invalidChannel s))
    ∧ (∀ (s : State) (a b : Byte), s.running → (3 ≤ a.toNat ∨ 4 ≤ b.toNat) →
        decode (encode (.bridge a b)) = .ok (.bridge a b)
          ∧ exec (.bridge a b) s = .next (takeFault .invalidBridgeArgs s))
    ∧ (∀ (s : State) (a : Byte), s.halted = false → s.dirset = false → a ≠ 0x3F#8 →
        decode (encode (.setdir a)) = .ok (.setdir a)
          ∧ exec (.setdir a) s = .next (takeFault .invalidDirMask s))

/-- 95_test_vectors 2.1 and 30_encoding R83: words written out from the encodings decode to their commands. -/
def Obligations.SampleWordsDecode : Prop :=
  decode 0x013F0000#32 = .ok (.setdir 0x3F#8)
    ∧ decode 0x020F0500#32 = .ok (.write 0x0F#8 0x05#8)
    ∧ decode 0x07010100#32 = .ok (.bridge 1#8 1#8)
    ∧ decode 0x08030000#32 = .ok (.manv 3#8)
    ∧ decode 0x0A000000#32 = .ok .navtick
    ∧ decode 0x0B310100#32 = .ok (.contickKey 0x31#8)
    ∧ decode 0x08040000#32 = .error .reservedOperand
    ∧ decode 0x0D000000#32 = .error .reservedOpcode

/-- 30_encoding R83: the word each assembler line stands for. -/
def Obligations.AssemblerWords : Prop :=
  ∀ m v i : Byte, ∀ p : PairOperand, ∀ c : CommandOperand, ∀ n : ManeuverOperand, ∀ k : Byte,
    (AsmLine.setdir m).word = 0x01000000#32 ||| (m.setWidth 32 <<< 16)
      ∧ (AsmLine.write m v).word = 0x02000000#32 ||| (m.setWidth 32 <<< 16) ||| (v.setWidth 32 <<< 8)
      ∧ AsmLine.read.word = 0x03000000#32
      ∧ (AsmLine.set i).word = 0x04000000#32 ||| (i.setWidth 32 <<< 16)
      ∧ (AsmLine.clr i).word = 0x05000000#32 ||| (i.setWidth 32 <<< 16)
      ∧ (AsmLine.tgl i).word = 0x06000000#32 ||| (i.setWidth 32 <<< 16)
      ∧ (AsmLine.bridge p c).word
          = 0x07000000#32 ||| (p.code.setWidth 32 <<< 16) ||| (c.code.setWidth 32 <<< 8)
      ∧ (AsmLine.manv n).word = 0x08000000#32 ||| (n.code.setWidth 32 <<< 16)
      ∧ AsmLine.sense.word = 0x09000000#32
      ∧ AsmLine.navtick.word = 0x0A000000#32
      ∧ AsmLine.contick.word = 0x0B000000#32
      ∧ (AsmLine.contickKey k).word = 0x0B000100#32 ||| (k.setWidth 32 <<< 16)
      ∧ AsmLine.zeroall.word = 0x0C000000#32

/-- 30_encoding R84: the pseudo-instructions, and the commands that stand for each other in every state. -/
def Obligations.PseudoInstructionsAndEquivalences : Prop :=
  (AsmLine.forward.instr = (AsmLine.manv (.name .fwd)).instr
      ∧ AsmLine.backward.instr = (AsmLine.manv (.name .bwd)).instr
      ∧ AsmLine.pivotLeft.instr = (AsmLine.manv (.name .pivl)).instr
      ∧ AsmLine.pivotRight.instr = (AsmLine.manv (.name .pivr)).instr
      ∧ AsmLine.poll.instr = AsmLine.contick.instr
      ∧ ∀ k, (AsmLine.key k).instr = (AsmLine.contickKey k).instr)
    ∧ (∀ (s : State) (i : Byte), i.toNat ≤ 7 →
        exec (.set i) s = exec (.write (1#8 <<< i.toNat) (1#8 <<< i.toNat)) s
          ∧ exec (.clr i) s = exec (.write (1#8 <<< i.toNat) 0#8) s)
    ∧ (∀ s : State, exec .zeroall s = exec (.write 0x3F#8 0#8) s)

/-! ### Operand tables -/

/-- 30_encoding R75, R76, R77, 10_state R24, 41_bridge R141, 42_maneuver R161: codes, channels and tables. -/
def Obligations.OperandTables : Prop :=
  (∀ a : Byte, pairOfCode a =
      if a = 0#8 then some .a else if a = 1#8 then some .b else if a = 2#8 then some .c else none)
    ∧ (∀ b : Byte, bridgeCommandOfCode b =
        if b = 0#8 then some .left else if b = 1#8 then some .right
        else if b = 2#8 then some .brake else if b = 3#8 then some .coast else none)
    ∧ (maneuverOfCode 0#8 = .fwd ∧ maneuverOfCode 1#8 = .bwd
        ∧ maneuverOfCode 2#8 = .pivl ∧ maneuverOfCode 3#8 = .pivr)
    ∧ (pairLo .a = 0 ∧ pairHi .a = 1 ∧ pairLo .b = 2 ∧ pairHi .b = 3 ∧ pairLo .c = 4 ∧ pairHi .c = 5)
    ∧ (bridgeTarget .left = (true, false) ∧ bridgeTarget .right = (false, true)
        ∧ bridgeTarget .brake = (true, true) ∧ bridgeTarget .coast = (false, false))
    ∧ (maneuverTable .fwd = (.left, .left) ∧ maneuverTable .bwd = (.right, .right)
        ∧ maneuverTable .pivl = (.left, .right) ∧ maneuverTable .pivr = (.right, .left))

/-- 30_encoding R78, 43_loops R191: `Dispatch` on every key code, for every legal KEYMAP_BC (two cases
of a letter as in ASCII: log 6). -/
def Obligations.KeyDispatchTable : Prop :=
  ∀ k : Keymap, k.legal = true →
    (∀ e ∈ keyTable k, dispatchKey k e.1 = e.2)
      ∧ ∀ key : Byte, key ∉ (keyTable k).map Prod.fst → dispatchKey k key = .noAction

/-! ### Reset and boot -/

/-- 70 R241, R242: the reset values, the kept configuration, and that the controller then waits for a command. -/
def Obligations.ResetValues : Prop :=
  State.reset.isReset
    ∧ ∀ s : State, (applyReset s).isReset ∧ (applyReset s).cfg = s.cfg
        ∧ (s.moves = [] → step (applyReset s) = .next (applyReset s))

/-- 70 R240, R241: reset at any position abandons the command in progress, its hidden values and its response, and a
partial word (20_memory R53; log 9); the configuration, the environment's answers still to come and the observation
stay (log 3, log 8), and the pin trace gains one `Undriven` entry (10_state R35). -/
def Obligations.ResetAtAnyPosition : Prop :=
  ∀ (s : State) (ms : List Move), s.moves = .reset :: ms →
    ∃ t, step s = .next t ∧ t = applyReset { s with moves := ms } ∧ t.isReset ∧ t.rx = [] ∧ t.cfg = s.cfg
      ∧ t.env = s.env ∧ t.draws = s.draws ∧ t.responses = s.responses ∧ t.ticks = s.ticks
      ∧ t.trace = s.trace ++ [⟨.undriven, s.ticks⟩] ∧ t.moves = ms

/-- 70 R244, R245: from reset, `SETDIR 0x3F` configures the machine with every pair in COAST; any other decoded
command raises NotConfigured and halts; a second SETDIR raises DirReconfigure. -/
def Obligations.BootSequence : Prop :=
  (∀ s : State, s.isReset → exchangeSucceeds (s.exchangeAt 0) = true →
      ∃ t, exec (.setdir 0x3F#8) s = .next t ∧ t.configured ∧ t.allCoast)
    ∧ (∀ (s : State) (i : Instr), s.isReset → (∀ a, i ≠ .setdir a) →
        ∃ t, exec i s = .next t ∧ t = takeFault .notConfigured s ∧ t.halted = true ∧ t.pinsOut = .undriven
          ∧ t.trace = s.trace)
    ∧ (∀ (s : State) (a : Byte), s.running →
        exec (.setdir a) s = .next (takeFault .dirReconfigure s))

/-- 70 R244, R245: a host that keeps the boot duty meets no NotConfigured, DirReconfigure or InvalidDirMask, in any
step from any state that meets the invariant. The duty is the model's predicate on a host that sends words (log 25). -/
def Obligations.BootDutyAvoidsConfigurationFaults : Prop :=
  ∀ s t : State, s.Inv → s.bootDutyMet → step s = .next t →
    t.bootDutyMet ∧ ∀ r, t.responses = s.responses ++ [r] → errFree r.err

/-- 70 R246, 60_exceptions R224, R225: ZEROALL and a Quit cycle leave every pair's latch bits in COAST, whatever the
exchanges do, so a run that ends there meets the shutdown duty. The pins are driven with 0, or are Unknown where the
commit of the cleanup after a DeviceUnavailable failed too. -/
def Obligations.ZeroallAndQuitShutDown : Prop :=
  ∀ (i : Instr) (s t : State), s.running → s.moves = [] →
    (i = .zeroall ∨ ∃ key, i = .contickKey key ∧ dispatchKey s.cfg.keymap key = .quit) →
    exec i s = .next t →
    t.allCoast ∧ t.runOver ∧ t.shutdownMet
      ∧ (t.pinsOut = .driven 0#6
          ∨ (t.pinsOut = .unknown ∧ t.halted = true ∧ t.err = FaultCode.code .deviceUnavailable))

/-! ### Port commands -/

/-- 40_port R101, 60_exceptions R217, R218: SETDIR, its word and every case. -/
def Obligations.SetdirWhole : Prop :=
  (∀ a : Byte, encode (.setdir a) = 0x01000000#32 ||| (a.setWidth 32 <<< 16))
    ∧ ∀ (s : State) (a : Byte), s.halted = false →
      (s.dirset = true → exec (.setdir a) s = .next (takeFault .dirReconfigure s))
        ∧ (s.dirset = false → a ≠ 0x3F#8 → exec (.setdir a) s = .next (takeFault .invalidDirMask s))
        ∧ (s.dirset = false → a = 0x3F#8 → exchangeSucceeds (s.exchangeAt 0) = true →
            exec (.setdir a) s = .next
              ((({ s with dir := 0x3F#8, dirset := true } : State).committed s.out).answered
                (plainResponse 0#4 s.err)))
        ∧ (s.dirset = false → a = 0x3F#8 → exchangeSucceeds (s.exchangeAt 0) = false →
            exec (.setdir a) s = .next
              (takeFault .deviceUnavailable ({ s with dir := 0x3F#8, dirset := true } : State).exchangeLost))

/-- 40_port R104: WRITE, its word and every case; the latch channel by channel. -/
def Obligations.WriteWhole : Prop :=
  (∀ a b : Byte, encode (.write a b) = 0x02000000#32 ||| (a.setWidth 32 <<< 16) ||| (b.setWidth 32 <<< 8))
    ∧ ∀ (s : State) (mask value : Byte), s.running →
      (mask.extractLsb' 6 2 ≠ 0#2 → exec (.write mask value) s = .next (takeFault .invalidChannel s))
        ∧ (mask.extractLsb' 6 2 = 0#2 →
            ∃ v : Latch,
              (∀ j, j < 6 → v.getLsbD j = if mask.getLsbD j then value.getLsbD j else s.out.getLsbD j)
                ∧ (exchangeSucceeds (s.exchangeAt 0) = true →
                    exec (.write mask value) s = .next ((s.committed v).answered (plainResponse 0#4 s.err)))
                ∧ (exchangeSucceeds (s.exchangeAt 0) = false →
                    exec (.write mask value) s = .next (takeFault .deviceUnavailable (s.commitFailed v))))

/-- 40_port R107: READ, its word; it returns the live inputs over the latch, and changes nothing but re-driving the
pins. -/
def Obligations.ReadWhole : Prop :=
  encode .read = 0x03000000#32
    ∧ ∀ s : State, s.running →
      (∀ p : Sensors, s.exchangeAt 0 = .done p →
          exec .read s = .next (s.sampledOnce.answered ⟨0#4, s.err, p ++ s.out, 0#2, 0, 0, false⟩))
        ∧ (s.exchangeAt 0 = .failed → exec .read s = .next (takeFault .deviceUnavailable s.exchangeLost))

/-- 40_port R119: SENSE, its word; it returns the live inputs, and changes nothing but re-driving the pins. -/
def Obligations.SenseWhole : Prop :=
  encode .sense = 0x09000000#32
    ∧ ∀ s : State, s.running →
      (∀ p : Sensors, s.exchangeAt 0 = .done p →
          exec .sense s = .next (s.sampledOnce.answered ⟨0#4, s.err, 0#8, p, 0, 0, false⟩))
        ∧ (s.exchangeAt 0 = .failed → exec .sense s = .next (takeFault .deviceUnavailable s.exchangeLost))

/-- 40_port R110: SET, its word and every case. -/
def Obligations.SetWhole : Prop :=
  (∀ a : Byte, encode (.set a) = 0x04000000#32 ||| (a.setWidth 32 <<< 16))
    ∧ ∀ (s : State) (a : Byte), s.running →
      (5 < a.toNat → exec (.set a) s = .next (takeFault .invalidChannel s))
        ∧ (a.toNat ≤ 5 → exchangeSucceeds (s.exchangeAt 0) = true →
            exec (.set a) s = .next
              ((s.committed (setChannel s.out a.toNat true)).answered (plainResponse 0#4 s.err)))
        ∧ (a.toNat ≤ 5 → exchangeSucceeds (s.exchangeAt 0) = false →
            exec (.set a) s = .next
              (takeFault .deviceUnavailable (s.commitFailed (setChannel s.out a.toNat true))))

/-- 40_port R112: CLR, its word and every case. -/
def Obligations.ClrWhole : Prop :=
  (∀ a : Byte, encode (.clr a) = 0x05000000#32 ||| (a.setWidth 32 <<< 16))
    ∧ ∀ (s : State) (a : Byte), s.running →
      (5 < a.toNat → exec (.clr a) s = .next (takeFault .invalidChannel s))
        ∧ (a.toNat ≤ 5 → exchangeSucceeds (s.exchangeAt 0) = true →
            exec (.clr a) s = .next
              ((s.committed (setChannel s.out a.toNat false)).answered (plainResponse 0#4 s.err)))
        ∧ (a.toNat ≤ 5 → exchangeSucceeds (s.exchangeAt 0) = false →
            exec (.clr a) s = .next
              (takeFault .deviceUnavailable (s.commitFailed (setChannel s.out a.toNat false))))

/-- 40_port R114: TGL, its word and every case. -/
def Obligations.TglWhole : Prop :=
  (∀ a : Byte, encode (.tgl a) = 0x06000000#32 ||| (a.setWidth 32 <<< 16))
    ∧ ∀ (s : State) (a : Byte), s.running →
      (5 < a.toNat → exec (.tgl a) s = .next (takeFault .invalidChannel s))
        ∧ (a.toNat ≤ 5 → exchangeSucceeds (s.exchangeAt 0) = true →
            exec (.tgl a) s = .next
              ((s.committed (setChannel s.out a.toNat (!s.out.getLsbD a.toNat))).answered
                (plainResponse 0#4 s.err)))
        ∧ (a.toNat ≤ 5 → exchangeSucceeds (s.exchangeAt 0) = false →
            exec (.tgl a) s = .next
              (takeFault .deviceUnavailable
                (s.commitFailed (setChannel s.out a.toNat (!s.out.getLsbD a.toNat)))))

/-- 40_port R115: two TGLs of one channel restore the latch; each changes that channel alone; two trace entries. -/
def Obligations.ToggleTwiceRestores : Prop :=
  ∀ (s : State) (a : Byte), s.running → a.toNat ≤ 5 → s.exchangesSucceed 2 →
    ∃ t u, exec (.tgl a) s = .next t ∧ exec (.tgl a) t = .next u
      ∧ (∀ j, j < 6 → t.out.getLsbD j = if j = a.toNat then !s.out.getLsbD j else s.out.getLsbD j)
      ∧ u.out = s.out
      ∧ u.trace = s.trace ++ [⟨.driven (s.out ^^^ (1#6 <<< a.toNat)), s.ticks⟩, ⟨.driven s.out, s.ticks⟩]

/-- 40_port R117: ZEROALL, its word and both cases. -/
def Obligations.ZeroallWhole : Prop :=
  encode .zeroall = 0x0C000000#32
    ∧ ∀ s : State, s.running →
      (exchangeSucceeds (s.exchangeAt 0) = true →
          exec .zeroall s = .next ((s.committed 0#6).answered (plainResponse 0#4 s.err)))
        ∧ (exchangeSucceeds (s.exchangeAt 0) = false →
            exec .zeroall s = .next (takeFault .deviceUnavailable (s.commitFailed 0#6)))

/-! ### Bridge -/

/-- 41_bridge R144, R143, 60_exceptions R215: BRIDGE, its word and every case. -/
def Obligations.BridgeWhole : Prop :=
  (∀ a b : Byte, encode (.bridge a b) = 0x07000000#32 ||| (a.setWidth 32 <<< 16) ||| (b.setWidth 32 <<< 8))
    ∧ (∀ (s : State) (a b : Byte), s.running → (2 < a.toNat ∨ 3 < b.toNat) →
      exec (.bridge a b) s = .next (takeFault .invalidBridgeArgs s))
    ∧ ∀ (s : State) (p : Pair) (c : BridgeCommand) (v1 v2 : Latch), s.running →
        v1 = setChannel s.out (pairLo p) (bridgeTarget c).1 →
        v2 = setChannel v1 (pairHi p) (bridgeTarget c).2 →
        (s.exchangesSucceed 2 →
            exec (.bridge (PairOperand.name p).code (CommandOperand.name c).code) s
              = .next (((s.committed v1).committed v2).answered (plainResponse 0#4 s.err)))
          ∧ (exchangeSucceeds (s.exchangeAt 0) = false →
              exec (.bridge (PairOperand.name p).code (CommandOperand.name c).code) s
                = .next (takeFault .deviceUnavailable (s.commitFailed v1)))
          ∧ (exchangeSucceeds (s.exchangeAt 0) = true → exchangeSucceeds (s.exchangeAt 1) = false →
              exec (.bridge (PairOperand.name p).code (CommandOperand.name c).code) s
                = .next (takeFault .deviceUnavailable ((s.committed v1).commitFailed v2)))

/-- 41_bridge R146, R147: after a BRIDGE without fault the pair holds its target and no other channel changed. -/
def Obligations.BridgeGuarantee : Prop :=
  ∀ (s t : State) (a b : Byte) (p : Pair) (c : BridgeCommand), s.running →
    pairOfCode a = some p → bridgeCommandOfCode b = some c →
    exec (.bridge a b) s = .next t → t.halted = false →
    t.out.getLsbD (pairLo p) = (match c with
        | .left => true
        | .right => false
        | .brake => true
        | .coast => false)
      ∧ t.out.getLsbD (pairHi p) = (match c with
          | .left => false
          | .right => true
          | .brake => true
          | .coast => false)
      ∧ ∀ j, j ≠ pairLo p → j ≠ pairHi p → t.out.getLsbD j = s.out.getLsbD j

/-- 41_bridge R145's table: between the commits the pins show (new first, old second). The cells that pass through a
third state are the three its prose names and, by its table, BRAKE from COAST, through LEFT (log 24). -/
def Obligations.BridgeTransients : Prop :=
  ∀ (s : State) (p : Pair) (c : BridgeCommand), s.running → s.exchangesSucceed 2 →
    ∃ (t : State) (v1 v2 : Latch) (prior mid target : Bool × Bool),
      exec (.bridge (PairOperand.name p).code (CommandOperand.name c).code) s = .next t
        ∧ t.trace = s.trace ++ [⟨.driven v1, s.ticks⟩, ⟨.driven v2, s.ticks⟩]
        ∧ prior = (s.out.getLsbD (pairLo p), s.out.getLsbD (pairHi p))
        ∧ mid = (v1.getLsbD (pairLo p), v1.getLsbD (pairHi p))
        ∧ target = (v2.getLsbD (pairLo p), v2.getLsbD (pairHi p))
        ∧ target = bridgeTarget c
        ∧ mid = (target.1, prior.2)
        ∧ (∀ j, j ≠ pairLo p → j ≠ pairHi p →
            v1.getLsbD j = s.out.getLsbD j ∧ v2.getLsbD j = s.out.getLsbD j)
        ∧ ((mid ≠ prior ∧ mid ≠ target) ↔
            (prior = bridgeTarget .left ∧ c = .right ∧ mid = bridgeTarget .coast)
              ∨ (prior = bridgeTarget .right ∧ c = .left ∧ mid = bridgeTarget .brake)
              ∨ (prior = bridgeTarget .brake ∧ c = .coast ∧ mid = bridgeTarget .right)
              ∨ (prior = bridgeTarget .coast ∧ c = .brake ∧ mid = bridgeTarget .left))

/-! ### Maneuvers -/

/-- 42_maneuver R162, R166: MANV, its word; completed or aborted at any of its eight commits. -/
def Obligations.ManvWhole : Prop :=
  (∀ a : Byte, encode (.manv a) = 0x08000000#32 ||| (a.setWidth 32 <<< 16))
    ∧ ∀ (s : State) (a : Byte), s.running →
      (s.exchangesSucceed 8 →
          exec (.manv a) s = .next ((s.maneuvered (maneuverOfCode a)).answered (plainResponse 0#4 s.err)))
        ∧ ∀ k, k < 8 → s.exchangesSucceed k → exchangeSucceeds (s.exchangeAt k) = false →
            exec (.manv a) s = .next (takeFault .deviceUnavailable (s.maneuverFailed (maneuverOfCode a) k))

/-- 42_maneuver R165, R164: a MANV that completes leaves pairs A and B in COAST and pair C as it was; four
commits at its first tick and four `CMD_DELAY` ticks later. -/
def Obligations.ManeuverEndsInCoast : Prop :=
  ∀ (s t : State) (a : Byte), s.running → exec (.manv a) s = .next t → t.halted = false →
    t.out.extractLsb' 0 4 = 0#4 ∧ t.out.extractLsb' 4 2 = s.out.extractLsb' 4 2
      ∧ t.ticks = s.ticks + s.cfg.cmdDelay
      ∧ ∃ es, t.trace = s.trace ++ es
          ∧ es.map TraceEntry.tick
              = List.replicate 4 s.ticks ++ List.replicate 4 (s.ticks + s.cfg.cmdDelay)

/-- 42_maneuver R168: the pin traces of the four maneuvers from pairs A and B in COAST, pair C holding `cc`. -/
def Obligations.ManeuverTraceTable : Prop :=
  ∀ (s : State) (cc : BitVec 2) (m : Maneuver), s.running → s.exchangesSucceed 8 → s.out = cc ++ 0#4 →
    ∃ t, exec (.manv (ManeuverOperand.name m).code) s = .next t
      ∧ t.trace = s.trace
          ++ (match m with
              | .fwd => [0b0001#4, 0b0001#4, 0b0101#4, 0b0101#4]
              | .bwd => [0b0000#4, 0b0010#4, 0b0010#4, 0b1010#4]
              | .pivl => [0b0001#4, 0b0001#4, 0b0001#4, 0b1001#4]
              | .pivr => [0b0000#4, 0b0010#4, 0b0110#4, 0b0110#4]).map
            (fun v => (⟨.driven (cc ++ v), s.ticks⟩ : TraceEntry))
          ++ (match m with
              | .fwd => [0b0100#4, 0b0100#4, 0b0000#4, 0b0000#4]
              | .bwd => [0b1010#4, 0b1000#4, 0b1000#4, 0b0000#4]
              | .pivl => [0b1000#4, 0b1000#4, 0b1000#4, 0b0000#4]
              | .pivr => [0b0110#4, 0b0100#4, 0b0000#4, 0b0000#4]).map
            (fun v => (⟨.driven (cc ++ v), s.ticks + s.cfg.cmdDelay⟩ : TraceEntry))

/-! ### Navigation and console cycles -/

/-- 43_loops R181, 42_maneuver R166: NAVTICK, its word; completed, aborted at its sample, or aborted at any commit of
any of its maneuvers. -/
def Obligations.NavtickWhole : Prop :=
  encode .navtick = 0x0A000000#32
    ∧ ∀ s : State, s.running →
      (s.exchangeAt 0 = .failed → exec .navtick s = .next (takeFault .deviceUnavailable s.exchangeLost))
        ∧ (∀ p : Sensors, s.exchangeAt 0 = .done p →
            s.exchangesSucceed (1 + 8 * (cycleManeuvers p).length) →
            exec .navtick s = .next
              (((s.sampledOnce.maneuveredAll (cycleManeuvers p)).waited s.cfg.loopDelay).answered
                ⟨0#4, s.err, 0#8, p, 0, 0, false⟩))
        ∧ (∀ (p : Sensors) (done rest : List Maneuver) (m : Maneuver) (k : Nat), s.exchangeAt 0 = .done p →
            cycleManeuvers p = done ++ m :: rest → k < 8 →
            s.exchangesSucceed (1 + 8 * done.length + k) →
            exchangeSucceeds (s.exchangeAt (1 + 8 * done.length + k)) = false →
            exec .navtick s = .next
              (takeFault .deviceUnavailable ((s.sampledOnce.maneuveredAll done).maneuverFailed m k)))

/-- 43_loops R183, R184, R185: commits, ticks and the idle outputs of a completed navigation cycle. -/
def Obligations.NavtickCounts : Prop :=
  ∀ (s : State) (p : Sensors), s.running → s.exchangeAt 0 = .done p →
    (p.getLsbD 0 = false → s.exchangesSucceed 49 →
        ∃ t es, exec .navtick s = .next t ∧ t.trace = s.trace ++ es ∧ es.length = 48
          ∧ t.draws = s.draws + 49 ∧ t.ticks = s.ticks + (6 * s.cfg.cmdDelay + s.cfg.loopDelay)
          ∧ t.out.extractLsb' 0 4 = 0#4 ∧ t.out.extractLsb' 4 2 = s.out.extractLsb' 4 2)
      ∧ (p.getLsbD 0 = true → s.exchangesSucceed 17 →
          ∃ t es, exec .navtick s = .next t ∧ t.trace = s.trace ++ es ∧ es.length = 16
            ∧ t.draws = s.draws + 17 ∧ t.ticks = s.ticks + (2 * s.cfg.cmdDelay + s.cfg.loopDelay)
            ∧ t.out.extractLsb' 0 4 = 0#4 ∧ t.out.extractLsb' 4 2 = s.out.extractLsb' 4 2)

/-- 43_loops R182, R188: channel 7, the counters and what earlier commands left in the hidden values do not
bear on a navigation cycle, whatever the exchanges do; only the reported sample and the counters differ. -/
def Obligations.NavtickMemoryless : Prop :=
  ∀ (s : State) (p q : Sensors) (rest : List Exchange) (c6 c7 : Nat) (h : Hidden), s.running →
    p.getLsbD 0 = q.getLsbD 0 →
    ∃ t u, exec .navtick { s with env := .done p :: rest } = .next t
      ∧ exec .navtick { s with env := .done q :: rest, cnt6 := c6, cnt7 := c7, hidden := h } = .next u
      ∧ u = { t with cnt6 := c6, cnt7 := c7, responses := u.responses }

/-- 43_loops R190, R196: CONTICK without a key, both cases. -/
def Obligations.ContickWhole : Prop :=
  ∀ s : State, s.running →
    (∀ p : Sensors, s.exchangeAt 0 = .done p →
        exec .contick s = .next
          (((s.sampledOnce.counted p).waited s.cfg.conDelay).answered
            ((s.counted p).consoleReport p false)))
      ∧ (s.exchangeAt 0 = .failed → exec .contick s = .next (takeFault .deviceUnavailable s.exchangeLost))

/-- 43_loops R190, R192, R195: CONTICK with a key, completed, by the dispatched action. -/
def Obligations.ContickKeyCompletes : Prop :=
  ∀ (s : State) (key : Byte) (p : Sensors), s.running →
    (dispatchKey s.cfg.keymap key = .noAction → s.exchangeAt 0 = .done p →
        exec (.contickKey key) s = .next
          (((s.sampledOnce.counted p).waited s.cfg.conDelay).answered
            ((s.counted p).consoleReport p false)))
      ∧ (dispatchKey s.cfg.keymap key = .resetCounters → s.exchangeAt 0 = .done p →
          exec (.contickKey key) s = .next
            (((s.countersCleared.sampledOnce.counted p).waited s.cfg.conDelay).answered
              ((s.countersCleared.counted p).consoleReport p false)))
      ∧ (∀ (i : Nat) (v : Latch), dispatchKey s.cfg.keymap key = .toggleChannel i →
          v = setChannel s.out i (!s.out.getLsbD i) → s.exchangesSucceed 1 → s.exchangeAt 1 = .done p →
          exec (.contickKey key) s = .next
            ((((s.committed v).sampledOnce.counted p).waited s.cfg.conDelay).answered
              ((s.counted p).consoleReport p false)))
      ∧ (∀ (q : Pair) (c : BridgeCommand) (v1 v2 : Latch), dispatchKey s.cfg.keymap key = .bridge q c →
          v1 = setChannel s.out (pairLo q) (bridgeTarget c).1 →
          v2 = setChannel v1 (pairHi q) (bridgeTarget c).2 →
          s.exchangesSucceed 2 → s.exchangeAt 2 = .done p →
          exec (.contickKey key) s = .next
            (((((s.committed v1).committed v2).sampledOnce.counted p).waited s.cfg.conDelay).answered
              ((s.counted p).consoleReport p false)))
      ∧ (dispatchKey s.cfg.keymap key = .quit → s.exchangeAt 0 = .done p →
          exchangeSucceeds (s.exchangeAt 1) = true →
          exec (.contickKey key) s = .next
            (((s.sampledOnce.counted p).committed 0#6).answered ((s.counted p).consoleReport p true)))

/-- 43_loops R190, 60_exceptions R216: CONTICK with a key, aborted at each exchange it can fail at; what
the counters hold then is the model's reading (log 11). -/
def Obligations.ContickKeyAborts : Prop :=
  ∀ (s : State) (key : Byte), s.running →
    (dispatchKey s.cfg.keymap key = .noAction → s.exchangeAt 0 = .failed →
        exec (.contickKey key) s = .next (takeFault .deviceUnavailable s.exchangeLost))
      ∧ (dispatchKey s.cfg.keymap key = .resetCounters → s.exchangeAt 0 = .failed →
          exec (.contickKey key) s = .next (takeFault .deviceUnavailable s.countersCleared.exchangeLost))
      ∧ (∀ (i : Nat) (v : Latch), dispatchKey s.cfg.keymap key = .toggleChannel i →
          v = setChannel s.out i (!s.out.getLsbD i) →
          (exchangeSucceeds (s.exchangeAt 0) = false →
              exec (.contickKey key) s = .next (takeFault .deviceUnavailable (s.commitFailed v)))
            ∧ (exchangeSucceeds (s.exchangeAt 0) = true → s.exchangeAt 1 = .failed →
                exec (.contickKey key) s
                  = .next (takeFault .deviceUnavailable (s.committed v).exchangeLost)))
      ∧ (∀ (q : Pair) (c : BridgeCommand) (v1 v2 : Latch), dispatchKey s.cfg.keymap key = .bridge q c →
          v1 = setChannel s.out (pairLo q) (bridgeTarget c).1 →
          v2 = setChannel v1 (pairHi q) (bridgeTarget c).2 →
          (exchangeSucceeds (s.exchangeAt 0) = false →
              exec (.contickKey key) s = .next (takeFault .deviceUnavailable (s.commitFailed v1)))
            ∧ (exchangeSucceeds (s.exchangeAt 0) = true → exchangeSucceeds (s.exchangeAt 1) = false →
                exec (.contickKey key) s
                  = .next (takeFault .deviceUnavailable ((s.committed v1).commitFailed v2)))
            ∧ (s.exchangesSucceed 2 → s.exchangeAt 2 = .failed →
                exec (.contickKey key) s
                  = .next (takeFault .deviceUnavailable ((s.committed v1).committed v2).exchangeLost)))
      ∧ (dispatchKey s.cfg.keymap key = .quit →
          (s.exchangeAt 0 = .failed →
              exec (.contickKey key) s = .next (takeFault .deviceUnavailable s.exchangeLost))
            ∧ (∀ p : Sensors, s.exchangeAt 0 = .done p → exchangeSucceeds (s.exchangeAt 1) = false →
                exec (.contickKey key) s
                  = .next (takeFault .deviceUnavailable ((s.sampledOnce.counted p).commitFailed 0#6))))

/-- 43_loops R194: the response to `CONTICK '0'` reports 1 for each channel that reads low and 0 for the other. -/
def Obligations.ResetCountersReport : Prop :=
  ∀ (s : State) (p : Sensors), s.running → s.cfg.legal = true → s.exchangeAt 0 = .done p →
    ∃ t r, exec (.contickKey 0x30#8) s = .next t ∧ t.responses = s.responses ++ [r]
      ∧ r.cnt6 = 1 - (p.getLsbD 0).toNat ∧ r.cnt7 = 1 - (p.getLsbD 1).toNat
      ∧ t.cnt6 = r.cnt6 ∧ t.cnt7 = r.cnt7

/-- 43_loops R193, 10_state R28: no command but CONTICK changes a counter, and none but `CONTICK '0'` lowers one. -/
def Obligations.CountersOnlyRise : Prop :=
  ∀ (i : Instr) (s t : State), exec i s = .next t →
    ((i ≠ .contick ∧ ∀ key, i ≠ .contickKey key) → t.cnt6 = s.cnt6 ∧ t.cnt7 = s.cnt7)
      ∧ (i ≠ .contickKey 0x30#8 → counterFits s.cfg.cntWidth s.cnt6 → counterFits s.cfg.cntWidth s.cnt7 →
          s.cnt6 ≤ t.cnt6 ∧ s.cnt7 ≤ t.cnt7)

/-- 95_test_vectors 2.6, 43_loops R191: a letter that dispatches to Bridge(p, c) leaves the latch and the pin trace
that `BRIDGE p, c` leaves. -/
def Obligations.BridgeKeyActsAsBridge : Prop :=
  ∀ (s : State) (key : Byte) (p : Pair) (c : BridgeCommand), s.running → s.exchangesSucceed 3 →
    dispatchKey s.cfg.keymap key = .bridge p c →
    ∃ t u, exec (.contickKey key) s = .next t
      ∧ exec (.bridge (PairOperand.name p).code (CommandOperand.name c).code) s = .next u
      ∧ t.out = u.out ∧ t.trace = u.trace ∧ t.pinsOut = u.pinsOut

/-! ### Faults and halt -/

/-- 60_exceptions R220, R224, R225: taking a fault, with its cleanup committed, failed, or not attempted. -/
def Obligations.TakeFaultEffect : Prop :=
  ∀ (e : FaultCode) (s : State),
    (s.dirset = false →
        takeFault e s =
          { s with
            err := e.code, out := 0#6, halted := true, seq := .halt, hidden := .idle
            responses := s.responses ++ [plainResponse e.code e.code] })
      ∧ (s.dirset = true → exchangeSucceeds (s.exchangeAt 0) = true →
          takeFault e s =
            { s with
              err := e.code, out := 0#6, halted := true, seq := .halt, hidden := .idle
              pinsOut := .driven 0#6, env := s.env.drop 1, draws := s.draws + 1
              trace := s.trace ++ [⟨.driven 0#6, s.ticks⟩]
              responses := s.responses ++ [plainResponse e.code e.code] })
      ∧ (s.dirset = true → exchangeSucceeds (s.exchangeAt 0) = false →
          takeFault e s =
            { s with
              err := e.code, out := 0#6, halted := true, seq := .halt, hidden := .idle
              pinsOut := .unknown, env := s.env.drop 1, draws := s.draws + 1
              trace := s.trace ++ [⟨.unknown, s.ticks⟩]
              responses := s.responses ++ [plainResponse e.code e.code] })

/-- 60_exceptions R211: the codes, all different, none of them 0 or 15. -/
def Obligations.FaultCodes : Prop :=
  (FaultCode.code .invalidChannel = 1#4 ∧ FaultCode.code .invalidBridgeArgs = 2#4
      ∧ FaultCode.code .deviceUnavailable = 3#4 ∧ FaultCode.code .illegalCommand = 4#4
      ∧ FaultCode.code .notConfigured = 5#4 ∧ FaultCode.code .dirReconfigure = 6#4
      ∧ FaultCode.code .invalidDirMask = 7#4)
    ∧ statusRefused = 15#4
    ∧ ∀ e f : FaultCode, e.code = f.code → e = f

/-- 60_exceptions R219, R212, R213: the prologue's order on an accepted word. -/
def Obligations.PrologueOrder : Prop :=
  ∀ (s : State) (w : Word) (ms : List Move), s.seq = .ready ∨ s.seq = .halt → s.moves = .word w :: ms →
    (s.halted = true →
        step s = .next
          { s with
            moves := ms
            responses := s.responses ++ [⟨0xF#4, s.err, 0#8, 0#2, 0, 0, false⟩] })
      ∧ (∀ e, s.halted = false → decode w = .error e →
          step s = .next (takeFault .illegalCommand { s with moves := ms }))
      ∧ (∀ i, s.halted = false → decode w = .ok i → s.dirset = false → (∀ a, i ≠ .setdir a) →
          step s = .next (takeFault .notConfigured { s with moves := ms }))
      ∧ (∀ i, s.halted = false → decode w = .ok i → (s.dirset = true ∨ ∃ a, i = .setdir a) →
          step s = exec i { s with moves := ms })

/-- 60_exceptions R221, R222: while halted nothing but reset changes anything but the responses and what the host
has sent. -/
def Obligations.HaltedUntilReset : Prop :=
  ∀ s : State, s.halted = true → s.seq = .halt → (∀ ms, s.moves ≠ .reset :: ms) →
    ∃ t, step s = .next t
      ∧ t = { s with moves := t.moves, rx := t.rx, responses := t.responses }
      ∧ ∀ w ms, s.moves = .word w :: ms →
          t.responses = s.responses ++ [⟨0xF#4, s.err, 0#8, 0#2, 0, 0, false⟩]

/-- 60_exceptions R220, R216: whatever command a fault ends, the outputs are cleared, and the pins are driven to 0,
unknown after a failed cleanup, or were never driven. -/
def Obligations.FaultLeavesOutputsOff : Prop :=
  ∀ (i : Instr) (s t : State), s.halted = false → exec i s = .next t → t.halted = true →
    t.out = 0#6 ∧ t.seq = .halt ∧ t.hidden = .idle
      ∧ (∃ e : FaultCode, t.err = e.code ∧ t.responses = s.responses ++ [plainResponse e.code e.code])
      ∧ (t.dirset = true → t.pinsOut = .driven 0#6 ∨ t.pinsOut = .unknown)
      ∧ (t.dirset = false → t.pinsOut = s.pinsOut ∧ t.trace = s.trace)

/-- 43_loops R190: on a running controller, CONTICK ends without fault or by DeviceUnavailable. -/
def Obligations.ConsoleFaultsOnlyByDevice : Prop :=
  ∀ (s t : State) (i : Instr), s.running → (i = .contick ∨ ∃ key, i = .contickKey key) →
    exec i s = .next t → t.halted = false ∨ t.err = FaultCode.code .deviceUnavailable

/-! ### What no command may do -/

/-- 40_port R100, 10_state R26: only SETDIR writes the direction mask and its flag; once set, only reset clears
the flag. -/
def Obligations.DirectionMaskWriteOnce : Prop :=
  (∀ (i : Instr) (s t : State), (∀ a, i ≠ .setdir a) → exec i s = .next t →
      t.dir = s.dir ∧ t.dirset = s.dirset)
    ∧ ∀ s t : State, s.Inv → step s = .next t → s.dirset = true →
        (∃ ms, s.moves = .reset :: ms) ∨ (t.dirset = true ∧ t.dir = s.dir)

/-- 10_state R32, R29: every command gives exactly one response, which is a refusal, a fault's or OK, with every
field the command does not report 0. -/
def Obligations.OneResponsePerCommand : Prop :=
  ∀ (i : Instr) (s : State), ∃ t r, exec i s = .next t ∧ t.responses = s.responses ++ [r] ∧ r.err = t.err
    ∧ ((s.halted = true ∧ r = plainResponse 0xF#4 s.err)
        ∨ (s.halted = false ∧ t.halted = true ∧ ∃ e : FaultCode, r = plainResponse e.code e.code)
        ∨ (s.halted = false ∧ t.halted = false ∧ r.status = 0#4 ∧ t.err = s.err ∧ t.seq = .ready
            ∧ t.hidden = .idle
            ∧ (i ≠ .read → r.data = 0#8)
            ∧ ((i ≠ .sense ∧ i ≠ .navtick ∧ i ≠ .contick ∧ ∀ key, i ≠ .contickKey key) →
                r.sense = 0#2)
            ∧ ((i ≠ .contick ∧ ∀ key, i ≠ .contickKey key) → r.cnt6 = 0 ∧ r.cnt7 = 0 ∧ r.quit = false)
            ∧ ((i = .contick ∨ ∃ key, i = .contickKey key) → r.cnt6 = t.cnt6 ∧ r.cnt7 = t.cnt7)))

/-- 10_state R20, R35: no command changes the configuration or the host's moves, takes back what was observed, or
turns time back. The model's choices: it keeps a byte transport's partial word (log 9), and takes the environment's
answers off the front of their list, one for each exchange counted (log 3). -/
def Obligations.CommandFrame : Prop :=
  ∀ (i : Instr) (s t : State), exec i s = .next t →
    t.cfg = s.cfg ∧ t.moves = s.moves ∧ t.rx = s.rx ∧ s.ticks ≤ t.ticks
      ∧ (∃ es, t.trace = s.trace ++ es) ∧ (∃ rs, t.responses = s.responses ++ rs)
      ∧ ∃ n, t.draws = s.draws + n ∧ t.env = s.env.drop n

/-- 70 R255, 20_memory R59: the input pins reach a command only through a sample: a command that takes none does the
same whatever the pins hold, if the same exchanges succeed. -/
def Obligations.InputPinsReachOnlySamples : Prop :=
  ∀ (i : Instr) (s : State) (env : List Exchange),
    (i ≠ .read ∧ i ≠ .sense ∧ i ≠ .navtick ∧ i ≠ .contick ∧ ∀ key, i ≠ .contickKey key) →
    (∀ n, exchangeSucceeds (({ s with env := env } : State).exchangeAt n) = exchangeSucceeds (s.exchangeAt n)) →
    ∃ t u, exec i s = .next t ∧ exec i { s with env := env } = .next u ∧ u = { t with env := u.env }

/-- 70 R258: ticks, commits and samples of every command that completes without fault. -/
def Obligations.TimingTable : Prop :=
  ∀ (i : Instr) (s t : State) (p : Sensors), s.halted = false → exec i s = .next t → t.halted = false →
    (i = .navtick → s.exchangeAt 0 = .done p) →
    t.ticks = s.ticks + (commandCost s.cfg i p).1
      ∧ t.trace.length = s.trace.length + (commandCost s.cfg i p).2.1
      ∧ t.draws = s.draws + ((commandCost s.cfg i p).2.1 + (commandCost s.cfg i p).2.2)

/-! ### The step -/

/-- 10_state R33, 60_exceptions R219: a word accepted between commands that decodes is executed as its command. The
model's choices: one step runs it whole (log 1), the word is the host's next move (log 2), and `withFetchWord` places
it there (log 20). -/
def Obligations.StepRunsDecoded : Prop :=
  (∀ (s : State) (w : Word) (i : Instr) (ms : List Move), s.seq = .ready ∨ s.seq = .halt →
      s.moves = .word w :: ms → decode w = .ok i → i.WellFormed →
      step s = exec i { s with moves := ms })
    ∧ ∀ (s : State) (w : Word) (nbits : Nat) (i : Instr), s.seq = .ready ∨ s.seq = .halt →
        nbits = 32 → decode w = .ok i → step (s.withFetchWord nbits w.toNat) = exec i s

/-- 30_encoding R71, 20_memory R53: four bytes, opcode first, do in four steps what their word does in one; three
bytes and a reset leave no partial word. The byte moves are the model's form of a byte transport (log 9). -/
def Obligations.ByteTransportAssembles : Prop :=
  (∀ (s : State) (w : Word), s.seq = .ready ∨ s.seq = .halt → s.rx = [] →
      Host.Core.run core 4 { s with moves := (wordBytes w).map Move.byte } = step { s with moves := [.word w] })
    ∧ ∀ (s : State) (a b c : Byte), s.seq = .ready ∨ s.seq = .halt → s.rx = [] →
        ∃ t, Host.Core.run core 3 { s with moves := [.byte a, .byte b, .byte c] } = .next t
          ∧ t = { s with moves := [], rx := [a, b, c] }
          ∧ Host.Core.run core 1 { t with moves := [.reset] } = .next (applyReset { s with moves := [], rx := [] })

/-- 00_scope R13, 10_state R30, R37: a word accepted and run one micro-step at a time ends, after at most 58
steps, in the state its execution in one step gives, and stays there. Both granularities, and the micro-steps of fault
entry, are the model's (log 1, log 10). -/
def Obligations.MicroStepsRefineExecution : Prop :=
  ∀ (s : State) (w : Word), s.seq = .ready ∨ s.seq = .halt →
    ∀ n, 58 ≤ n →
      Host.Core.run core n { s with moves := [.offer w] } = step { s with moves := [.word w] }

/-- 00_scope R13, 60_exceptions R228: a Wait may be passed tick by tick, register updates before it done once. The
tick move is the model's (log 1). -/
def Obligations.TicksPassAWait : Prop :=
  ∀ (s : State) (c : Instr) (k : Nat) (us : List RegUpdate) (d : Delay) (ms : List Move),
    s.seq = .exec c k → s.hidden.waitLeft = none → currentMicro c k s = some ⟨us, .wait d⟩ →
    1 ≤ delayTicks s.cfg d →
    Host.Core.run core (delayTicks s.cfg d)
        { s with moves := List.replicate (delayTicks s.cfg d) Move.tick ++ ms }
      = step { s with moves := .go :: ms }

/-- 10_state R20 to R31: the reset state meets the invariant. -/
def Obligations.ResetMeetsInvariant : Prop := State.reset.Inv

/-- 00_scope R11, 10_state R26 to R31, 60_exceptions R220, R224: every step keeps the invariant. Its positions
inside fault entry are the model's (log 10). -/
def Obligations.StepKeepsInvariant : Prop :=
  ∀ s t : State, s.Inv → step s = .next t → t.Inv

/-- 10_state R37, 60_exceptions R210: a state that meets the invariant always has a next state. -/
def Obligations.InvariantNeverStops : Prop :=
  ∀ s : State, s.Inv → ∃ t, step s = .next t

/-- 10_state R33, R34: inside a command and inside fault entry a pending word, offer or byte is not taken: the step is
the next micro-step, and the host's moves and the partial word stay (log 16). On `go` it is the same micro-step, with
the move taken (log 1). -/
def Obligations.PendingMovesWait : Prop :=
  (∀ (s t : State) (c : Instr) (k : Nat) (m : MicroStep), s.seq = .exec c k → currentMicro c k s = some m →
      t = (perform m s).pause →
      (s.moves = [] → step s = .next t)
        ∧ (∀ mv ms, s.moves = mv :: ms → mv.brings = true → step s = .next t ∧ t.moves = s.moves ∧ t.rx = s.rx)
        ∧ ∀ ms, s.moves = .go :: ms → step s = .next { t with moves := ms })
    ∧ ∀ (s t : State) (e : FaultCode) (cleaned : Bool), s.seq = .faulting e cleaned → t = faultMicro e cleaned s →
      (s.moves = [] → step s = .next t)
        ∧ (∀ mv ms, s.moves = mv :: ms → mv.brings = true → step s = .next t ∧ t.moves = s.moves ∧ t.rx = s.rx)
        ∧ ∀ ms, s.moves = .go :: ms → step s = .next { t with moves := ms }

/-- 10_state R39, R32: in a run that meets `NoFault` every response given is OK. -/
def Obligations.NoFaultRunsAnswerOk : Prop :=
  ∀ s : State, s.noFault → ∀ (k : Nat) (t : State), Host.Core.run core k s = .next t →
    ∃ rs, t.responses = s.responses ++ rs ∧ ∀ r ∈ rs, r.status = 0#4
end

