-- ==== Sys2Proof/Laws/Decode.lean ====
section
/-! SUPPORT. The word's fields, and what each format of the decoder accepts. -/

namespace Sys2Proof

@[simp] theorem wordOp_mkWord (op a b c : Byte) : wordOp (mkWord op a b c) = op := by
  ext i hi
  simp only [wordOp, mkWord, BitVec.getElem_extractLsb', BitVec.getLsbD_or, BitVec.getLsbD_shiftLeft, BitVec.getLsbD_setWidth]
  have h1 : b.getLsbD (24 + i - 8) = false := BitVec.getLsbD_of_ge _ _ (by omega)
  have h2 : a.getLsbD (24 + i - 16) = false := BitVec.getLsbD_of_ge _ _ (by omega)
  have h3 : c.getLsbD (24 + i) = false := BitVec.getLsbD_of_ge _ _ (by omega)
  simp [h1, h2, h3, hi, show 24 + i < 32 by omega, show ¬ (24 + i < 24) by omega]
  intro _; omega

@[simp] theorem wordA_mkWord (op a b c : Byte) : wordA (mkWord op a b c) = a := by
  ext i hi
  simp only [wordA, mkWord, BitVec.getElem_extractLsb', BitVec.getLsbD_or, BitVec.getLsbD_shiftLeft, BitVec.getLsbD_setWidth]
  have h1 : b.getLsbD (16 + i - 8) = false := BitVec.getLsbD_of_ge _ _ (by omega)
  have h3 : c.getLsbD (16 + i) = false := BitVec.getLsbD_of_ge _ _ (by omega)
  simp [h1, h3, hi, show 16 + i < 32 by omega, show ¬ (16 + i < 16) by omega, show 16 + i < 24 by omega]
  intro _; omega

@[simp] theorem wordB_mkWord (op a b c : Byte) : wordB (mkWord op a b c) = b := by
  ext i hi
  simp only [wordB, mkWord, BitVec.getElem_extractLsb', BitVec.getLsbD_or, BitVec.getLsbD_shiftLeft, BitVec.getLsbD_setWidth]
  simp [hi, show 8 + i < 32 by omega, show 8 + i < 16 by omega, show 8 + i < 24 by omega]
  intro _; omega

@[simp] theorem wordC_mkWord (op a b c : Byte) : wordC (mkWord op a b c) = c := by
  ext i hi
  simp only [wordC, mkWord, BitVec.getElem_extractLsb', BitVec.getLsbD_or, BitVec.getLsbD_shiftLeft, BitVec.getLsbD_setWidth]
  simp [hi, show i < 32 by omega, show i < 16 by omega, show i < 24 by omega]

/-- A word is the word of its four fields. -/
theorem mkWord_fields (w : Word) : mkWord (wordOp w) (wordA w) (wordB w) (wordC w) = w := by
  apply BitVec.eq_of_getLsbD_eq
  intro i hi
  simp only [wordOp, wordA, wordB, wordC, mkWord, BitVec.getLsbD_or, BitVec.getLsbD_shiftLeft,
    BitVec.getLsbD_setWidth, BitVec.getLsbD_extractLsb']
  rcases Nat.lt_or_ge i 8 with h | h
  · simp [hi, h, show i < 24 by omega, show i < 16 by omega]
  rcases Nat.lt_or_ge i 16 with h2 | h2
  · simp [hi, show ¬ i < 8 by omega, h2, show i < 24 by omega, show i - 8 < 8 by omega, show i - 8 < 32 by omega,
      show 8 + (i - 8) = i by omega]
  rcases Nat.lt_or_ge i 24 with h3 | h3
  · simp [hi, show ¬ i < 8 by omega, show ¬ i < 16 by omega, h3, show i - 16 < 8 by omega,
      show ¬ (i - 8 < 8) by omega, show i - 16 < 32 by omega, show 16 + (i - 16) = i by omega]
  · simp [hi, show ¬ i < 8 by omega, show ¬ i < 16 by omega, show ¬ i < 24 by omega, show i - 24 < 8 by omega,
      show ¬ (i - 8 < 8) by omega, show ¬ (i - 16 < 8) by omega, show i - 24 < 32 by omega,
      show 24 + (i - 24) = i by omega]

/-- The decoder looks at the four fields alone. -/
@[simp] theorem decode_mkWord (op a b c : Byte) : decode (mkWord op a b c) = decodeFields op a b c := by
  simp [decode]

@[simp] theorem formatF0_ok (a b c : Byte) (i j : Instr) :
    formatF0 a b c i = .ok j ↔ (a = 0#8 ∧ b = 0#8 ∧ c = 0#8) ∧ i = j := by
  unfold formatF0; split <;> simp [*]

@[simp] theorem formatF1_ok (b c : Byte) (i j : Instr) :
    formatF1 b c i = .ok j ↔ (b = 0#8 ∧ c = 0#8) ∧ i = j := by
  unfold formatF1; split <;> simp [*]

@[simp] theorem formatF2_ok (c : Byte) (i j : Instr) :
    formatF2 c i = .ok j ↔ c = 0#8 ∧ i = j := by
  unfold formatF2; split <;> simp [*]

@[simp] theorem decodeManv_ok (a b c : Byte) (j : Instr) :
    decodeManv a b c = .ok j ↔ a.extractLsb' 2 6 = 0#6 ∧ (b = 0#8 ∧ c = 0#8) ∧ .manv a = j := by
  unfold decodeManv; split <;> simp [*]

@[simp] theorem decodeContick_ok (a b c : Byte) (j : Instr) :
    decodeContick a b c = .ok j ↔
      (b = 1#8 ∧ c = 0#8 ∧ .contickKey a = j) ∨ (b = 0#8 ∧ a = 0#8 ∧ c = 0#8 ∧ .contick = j) := by
  unfold decodeContick
  split
  · next h => subst h; simp
  · next h => simp [h]; tauto

end Sys2Proof
end

