-- ==== Sys2Proof/Laws/State.lean ====
section
/-! SUPPORT. One lemma per field of State and named update: the field's value after it. -/

namespace Sys2Proof.Machine

/-! ### drawExchange -/

@[simp] theorem State.drawExchange_out (s : State) : (s.drawExchange).out = s.out := rfl
@[simp] theorem State.drawExchange_dir (s : State) : (s.drawExchange).dir = s.dir := rfl
@[simp] theorem State.drawExchange_dirset (s : State) : (s.drawExchange).dirset = s.dirset := rfl
@[simp] theorem State.drawExchange_pinsOut (s : State) : (s.drawExchange).pinsOut = s.pinsOut := rfl
@[simp] theorem State.drawExchange_cnt6 (s : State) : (s.drawExchange).cnt6 = s.cnt6 := rfl
@[simp] theorem State.drawExchange_cnt7 (s : State) : (s.drawExchange).cnt7 = s.cnt7 := rfl
@[simp] theorem State.drawExchange_halted (s : State) : (s.drawExchange).halted = s.halted := rfl
@[simp] theorem State.drawExchange_err (s : State) : (s.drawExchange).err = s.err := rfl
@[simp] theorem State.drawExchange_seq (s : State) : (s.drawExchange).seq = s.seq := rfl
@[simp] theorem State.drawExchange_hidden (s : State) : (s.drawExchange).hidden = s.hidden := rfl
@[simp] theorem State.drawExchange_rx (s : State) : (s.drawExchange).rx = s.rx := rfl
@[simp] theorem State.drawExchange_cfg (s : State) : (s.drawExchange).cfg = s.cfg := rfl
@[simp] theorem State.drawExchange_moves (s : State) : (s.drawExchange).moves = s.moves := rfl
@[simp] theorem State.drawExchange_env (s : State) : (s.drawExchange).env = s.env.drop 1 := rfl
@[simp] theorem State.drawExchange_draws (s : State) : (s.drawExchange).draws = s.draws + 1 := rfl
@[simp] theorem State.drawExchange_ticks (s : State) : (s.drawExchange).ticks = s.ticks := rfl
@[simp] theorem State.drawExchange_trace (s : State) : (s.drawExchange).trace = s.trace := rfl
@[simp] theorem State.drawExchange_responses (s : State) : (s.drawExchange).responses = s.responses := rfl

/-! ### drivePins -/

@[simp] theorem State.drivePins_out (s : State) : (s.drivePins).out = s.out := rfl
@[simp] theorem State.drivePins_dir (s : State) : (s.drivePins).dir = s.dir := rfl
@[simp] theorem State.drivePins_dirset (s : State) : (s.drivePins).dirset = s.dirset := rfl
@[simp] theorem State.drivePins_pinsOut (s : State) : (s.drivePins).pinsOut = .driven s.out := rfl
@[simp] theorem State.drivePins_cnt6 (s : State) : (s.drivePins).cnt6 = s.cnt6 := rfl
@[simp] theorem State.drivePins_cnt7 (s : State) : (s.drivePins).cnt7 = s.cnt7 := rfl
@[simp] theorem State.drivePins_halted (s : State) : (s.drivePins).halted = s.halted := rfl
@[simp] theorem State.drivePins_err (s : State) : (s.drivePins).err = s.err := rfl
@[simp] theorem State.drivePins_seq (s : State) : (s.drivePins).seq = s.seq := rfl
@[simp] theorem State.drivePins_hidden (s : State) : (s.drivePins).hidden = s.hidden := rfl
@[simp] theorem State.drivePins_rx (s : State) : (s.drivePins).rx = s.rx := rfl
@[simp] theorem State.drivePins_cfg (s : State) : (s.drivePins).cfg = s.cfg := rfl
@[simp] theorem State.drivePins_moves (s : State) : (s.drivePins).moves = s.moves := rfl
@[simp] theorem State.drivePins_env (s : State) : (s.drivePins).env = s.env := rfl
@[simp] theorem State.drivePins_draws (s : State) : (s.drivePins).draws = s.draws := rfl
@[simp] theorem State.drivePins_ticks (s : State) : (s.drivePins).ticks = s.ticks := rfl
@[simp] theorem State.drivePins_trace (s : State) : (s.drivePins).trace = s.trace := rfl
@[simp] theorem State.drivePins_responses (s : State) : (s.drivePins).responses = s.responses := rfl

/-! ### losePins -/

@[simp] theorem State.losePins_out (s : State) : (s.losePins).out = s.out := rfl
@[simp] theorem State.losePins_dir (s : State) : (s.losePins).dir = s.dir := rfl
@[simp] theorem State.losePins_dirset (s : State) : (s.losePins).dirset = s.dirset := rfl
@[simp] theorem State.losePins_pinsOut (s : State) : (s.losePins).pinsOut = .unknown := rfl
@[simp] theorem State.losePins_cnt6 (s : State) : (s.losePins).cnt6 = s.cnt6 := rfl
@[simp] theorem State.losePins_cnt7 (s : State) : (s.losePins).cnt7 = s.cnt7 := rfl
@[simp] theorem State.losePins_halted (s : State) : (s.losePins).halted = s.halted := rfl
@[simp] theorem State.losePins_err (s : State) : (s.losePins).err = s.err := rfl
@[simp] theorem State.losePins_seq (s : State) : (s.losePins).seq = s.seq := rfl
@[simp] theorem State.losePins_hidden (s : State) : (s.losePins).hidden = s.hidden := rfl
@[simp] theorem State.losePins_rx (s : State) : (s.losePins).rx = s.rx := rfl
@[simp] theorem State.losePins_cfg (s : State) : (s.losePins).cfg = s.cfg := rfl
@[simp] theorem State.losePins_moves (s : State) : (s.losePins).moves = s.moves := rfl
@[simp] theorem State.losePins_env (s : State) : (s.losePins).env = s.env := rfl
@[simp] theorem State.losePins_draws (s : State) : (s.losePins).draws = s.draws := rfl
@[simp] theorem State.losePins_ticks (s : State) : (s.losePins).ticks = s.ticks := rfl
@[simp] theorem State.losePins_trace (s : State) : (s.losePins).trace = s.trace := rfl
@[simp] theorem State.losePins_responses (s : State) : (s.losePins).responses = s.responses := rfl

/-! ### tracePins -/

@[simp] theorem State.tracePins_out (s : State) : (s.tracePins).out = s.out := rfl
@[simp] theorem State.tracePins_dir (s : State) : (s.tracePins).dir = s.dir := rfl
@[simp] theorem State.tracePins_dirset (s : State) : (s.tracePins).dirset = s.dirset := rfl
@[simp] theorem State.tracePins_pinsOut (s : State) : (s.tracePins).pinsOut = s.pinsOut := rfl
@[simp] theorem State.tracePins_cnt6 (s : State) : (s.tracePins).cnt6 = s.cnt6 := rfl
@[simp] theorem State.tracePins_cnt7 (s : State) : (s.tracePins).cnt7 = s.cnt7 := rfl
@[simp] theorem State.tracePins_halted (s : State) : (s.tracePins).halted = s.halted := rfl
@[simp] theorem State.tracePins_err (s : State) : (s.tracePins).err = s.err := rfl
@[simp] theorem State.tracePins_seq (s : State) : (s.tracePins).seq = s.seq := rfl
@[simp] theorem State.tracePins_hidden (s : State) : (s.tracePins).hidden = s.hidden := rfl
@[simp] theorem State.tracePins_rx (s : State) : (s.tracePins).rx = s.rx := rfl
@[simp] theorem State.tracePins_cfg (s : State) : (s.tracePins).cfg = s.cfg := rfl
@[simp] theorem State.tracePins_moves (s : State) : (s.tracePins).moves = s.moves := rfl
@[simp] theorem State.tracePins_env (s : State) : (s.tracePins).env = s.env := rfl
@[simp] theorem State.tracePins_draws (s : State) : (s.tracePins).draws = s.draws := rfl
@[simp] theorem State.tracePins_ticks (s : State) : (s.tracePins).ticks = s.ticks := rfl
@[simp] theorem State.tracePins_trace (s : State) : (s.tracePins).trace = s.trace ++ [⟨s.pinsOut, s.ticks⟩] := rfl
@[simp] theorem State.tracePins_responses (s : State) : (s.tracePins).responses = s.responses := rfl

/-! ### respond -/

@[simp] theorem State.respond_out (r : Response) (s : State) : (s.respond r).out = s.out := rfl
@[simp] theorem State.respond_dir (r : Response) (s : State) : (s.respond r).dir = s.dir := rfl
@[simp] theorem State.respond_dirset (r : Response) (s : State) : (s.respond r).dirset = s.dirset := rfl
@[simp] theorem State.respond_pinsOut (r : Response) (s : State) : (s.respond r).pinsOut = s.pinsOut := rfl
@[simp] theorem State.respond_cnt6 (r : Response) (s : State) : (s.respond r).cnt6 = s.cnt6 := rfl
@[simp] theorem State.respond_cnt7 (r : Response) (s : State) : (s.respond r).cnt7 = s.cnt7 := rfl
@[simp] theorem State.respond_halted (r : Response) (s : State) : (s.respond r).halted = s.halted := rfl
@[simp] theorem State.respond_err (r : Response) (s : State) : (s.respond r).err = s.err := rfl
@[simp] theorem State.respond_seq (r : Response) (s : State) : (s.respond r).seq = s.seq := rfl
@[simp] theorem State.respond_hidden (r : Response) (s : State) : (s.respond r).hidden = s.hidden := rfl
@[simp] theorem State.respond_rx (r : Response) (s : State) : (s.respond r).rx = s.rx := rfl
@[simp] theorem State.respond_cfg (r : Response) (s : State) : (s.respond r).cfg = s.cfg := rfl
@[simp] theorem State.respond_moves (r : Response) (s : State) : (s.respond r).moves = s.moves := rfl
@[simp] theorem State.respond_env (r : Response) (s : State) : (s.respond r).env = s.env := rfl
@[simp] theorem State.respond_draws (r : Response) (s : State) : (s.respond r).draws = s.draws := rfl
@[simp] theorem State.respond_ticks (r : Response) (s : State) : (s.respond r).ticks = s.ticks := rfl
@[simp] theorem State.respond_trace (r : Response) (s : State) : (s.respond r).trace = s.trace := rfl
@[simp] theorem State.respond_responses (r : Response) (s : State) : (s.respond r).responses = s.responses ++ [r] := rfl

/-! ### enterFault -/

@[simp] theorem State.enterFault_out (e : FaultCode) (s : State) : (s.enterFault e).out = 0#6 := rfl
@[simp] theorem State.enterFault_dir (e : FaultCode) (s : State) : (s.enterFault e).dir = s.dir := rfl
@[simp] theorem State.enterFault_dirset (e : FaultCode) (s : State) : (s.enterFault e).dirset = s.dirset := rfl
@[simp] theorem State.enterFault_pinsOut (e : FaultCode) (s : State) : (s.enterFault e).pinsOut = s.pinsOut := rfl
@[simp] theorem State.enterFault_cnt6 (e : FaultCode) (s : State) : (s.enterFault e).cnt6 = s.cnt6 := rfl
@[simp] theorem State.enterFault_cnt7 (e : FaultCode) (s : State) : (s.enterFault e).cnt7 = s.cnt7 := rfl
@[simp] theorem State.enterFault_halted (e : FaultCode) (s : State) : (s.enterFault e).halted = s.halted := rfl
@[simp] theorem State.enterFault_err (e : FaultCode) (s : State) : (s.enterFault e).err = e.code := rfl
@[simp] theorem State.enterFault_seq (e : FaultCode) (s : State) : (s.enterFault e).seq = s.seq := rfl
@[simp] theorem State.enterFault_hidden (e : FaultCode) (s : State) : (s.enterFault e).hidden = .idle := rfl
@[simp] theorem State.enterFault_rx (e : FaultCode) (s : State) : (s.enterFault e).rx = s.rx := rfl
@[simp] theorem State.enterFault_cfg (e : FaultCode) (s : State) : (s.enterFault e).cfg = s.cfg := rfl
@[simp] theorem State.enterFault_moves (e : FaultCode) (s : State) : (s.enterFault e).moves = s.moves := rfl
@[simp] theorem State.enterFault_env (e : FaultCode) (s : State) : (s.enterFault e).env = s.env := rfl
@[simp] theorem State.enterFault_draws (e : FaultCode) (s : State) : (s.enterFault e).draws = s.draws := rfl
@[simp] theorem State.enterFault_ticks (e : FaultCode) (s : State) : (s.enterFault e).ticks = s.ticks := rfl
@[simp] theorem State.enterFault_trace (e : FaultCode) (s : State) : (s.enterFault e).trace = s.trace := rfl
@[simp] theorem State.enterFault_responses (e : FaultCode) (s : State) : (s.enterFault e).responses = s.responses := rfl

/-! ### start -/

@[simp] theorem State.start_out (c : Instr) (s : State) : (s.start c).out = s.out := rfl
@[simp] theorem State.start_dir (c : Instr) (s : State) : (s.start c).dir = s.dir := rfl
@[simp] theorem State.start_dirset (c : Instr) (s : State) : (s.start c).dirset = s.dirset := rfl
@[simp] theorem State.start_pinsOut (c : Instr) (s : State) : (s.start c).pinsOut = s.pinsOut := rfl
@[simp] theorem State.start_cnt6 (c : Instr) (s : State) : (s.start c).cnt6 = s.cnt6 := rfl
@[simp] theorem State.start_cnt7 (c : Instr) (s : State) : (s.start c).cnt7 = s.cnt7 := rfl
@[simp] theorem State.start_halted (c : Instr) (s : State) : (s.start c).halted = s.halted := rfl
@[simp] theorem State.start_err (c : Instr) (s : State) : (s.start c).err = s.err := rfl
@[simp] theorem State.start_seq (c : Instr) (s : State) : (s.start c).seq = .exec c 0 := rfl
@[simp] theorem State.start_hidden (c : Instr) (s : State) : (s.start c).hidden = .idle := rfl
@[simp] theorem State.start_rx (c : Instr) (s : State) : (s.start c).rx = s.rx := rfl
@[simp] theorem State.start_cfg (c : Instr) (s : State) : (s.start c).cfg = s.cfg := rfl
@[simp] theorem State.start_moves (c : Instr) (s : State) : (s.start c).moves = s.moves := rfl
@[simp] theorem State.start_env (c : Instr) (s : State) : (s.start c).env = s.env := rfl
@[simp] theorem State.start_draws (c : Instr) (s : State) : (s.start c).draws = s.draws := rfl
@[simp] theorem State.start_ticks (c : Instr) (s : State) : (s.start c).ticks = s.ticks := rfl
@[simp] theorem State.start_trace (c : Instr) (s : State) : (s.start c).trace = s.trace := rfl
@[simp] theorem State.start_responses (c : Instr) (s : State) : (s.start c).responses = s.responses := rfl

/-! ### raise -/

@[simp] theorem State.raise_out (e : FaultCode) (s : State) : (s.raise e).out = s.out := rfl
@[simp] theorem State.raise_dir (e : FaultCode) (s : State) : (s.raise e).dir = s.dir := rfl
@[simp] theorem State.raise_dirset (e : FaultCode) (s : State) : (s.raise e).dirset = s.dirset := rfl
@[simp] theorem State.raise_pinsOut (e : FaultCode) (s : State) : (s.raise e).pinsOut = s.pinsOut := rfl
@[simp] theorem State.raise_cnt6 (e : FaultCode) (s : State) : (s.raise e).cnt6 = s.cnt6 := rfl
@[simp] theorem State.raise_cnt7 (e : FaultCode) (s : State) : (s.raise e).cnt7 = s.cnt7 := rfl
@[simp] theorem State.raise_halted (e : FaultCode) (s : State) : (s.raise e).halted = s.halted := rfl
@[simp] theorem State.raise_err (e : FaultCode) (s : State) : (s.raise e).err = s.err := rfl
@[simp] theorem State.raise_seq (e : FaultCode) (s : State) : (s.raise e).seq = .faulting e false := rfl
@[simp] theorem State.raise_hidden (e : FaultCode) (s : State) : (s.raise e).hidden = s.hidden := rfl
@[simp] theorem State.raise_rx (e : FaultCode) (s : State) : (s.raise e).rx = s.rx := rfl
@[simp] theorem State.raise_cfg (e : FaultCode) (s : State) : (s.raise e).cfg = s.cfg := rfl
@[simp] theorem State.raise_moves (e : FaultCode) (s : State) : (s.raise e).moves = s.moves := rfl
@[simp] theorem State.raise_env (e : FaultCode) (s : State) : (s.raise e).env = s.env := rfl
@[simp] theorem State.raise_draws (e : FaultCode) (s : State) : (s.raise e).draws = s.draws := rfl
@[simp] theorem State.raise_ticks (e : FaultCode) (s : State) : (s.raise e).ticks = s.ticks := rfl
@[simp] theorem State.raise_trace (e : FaultCode) (s : State) : (s.raise e).trace = s.trace := rfl
@[simp] theorem State.raise_responses (e : FaultCode) (s : State) : (s.raise e).responses = s.responses := rfl

/-! ### committed -/

@[simp] theorem State.committed_out (v : Latch) (s : State) : (s.committed v).out = v := rfl
@[simp] theorem State.committed_dir (v : Latch) (s : State) : (s.committed v).dir = s.dir := rfl
@[simp] theorem State.committed_dirset (v : Latch) (s : State) : (s.committed v).dirset = s.dirset := rfl
@[simp] theorem State.committed_pinsOut (v : Latch) (s : State) : (s.committed v).pinsOut = .driven v := rfl
@[simp] theorem State.committed_cnt6 (v : Latch) (s : State) : (s.committed v).cnt6 = s.cnt6 := rfl
@[simp] theorem State.committed_cnt7 (v : Latch) (s : State) : (s.committed v).cnt7 = s.cnt7 := rfl
@[simp] theorem State.committed_halted (v : Latch) (s : State) : (s.committed v).halted = s.halted := rfl
@[simp] theorem State.committed_err (v : Latch) (s : State) : (s.committed v).err = s.err := rfl
@[simp] theorem State.committed_seq (v : Latch) (s : State) : (s.committed v).seq = s.seq := rfl
@[simp] theorem State.committed_hidden (v : Latch) (s : State) : (s.committed v).hidden = s.hidden := rfl
@[simp] theorem State.committed_rx (v : Latch) (s : State) : (s.committed v).rx = s.rx := rfl
@[simp] theorem State.committed_cfg (v : Latch) (s : State) : (s.committed v).cfg = s.cfg := rfl
@[simp] theorem State.committed_moves (v : Latch) (s : State) : (s.committed v).moves = s.moves := rfl
@[simp] theorem State.committed_env (v : Latch) (s : State) : (s.committed v).env = s.env.drop 1 := rfl
@[simp] theorem State.committed_draws (v : Latch) (s : State) : (s.committed v).draws = s.draws + 1 := rfl
@[simp] theorem State.committed_ticks (v : Latch) (s : State) : (s.committed v).ticks = s.ticks := rfl
@[simp] theorem State.committed_trace (v : Latch) (s : State) : (s.committed v).trace = s.trace ++ [⟨.driven v, s.ticks⟩] := rfl
@[simp] theorem State.committed_responses (v : Latch) (s : State) : (s.committed v).responses = s.responses := rfl

/-! ### sampledOnce -/

@[simp] theorem State.sampledOnce_out (s : State) : (s.sampledOnce).out = s.out := rfl
@[simp] theorem State.sampledOnce_dir (s : State) : (s.sampledOnce).dir = s.dir := rfl
@[simp] theorem State.sampledOnce_dirset (s : State) : (s.sampledOnce).dirset = s.dirset := rfl
@[simp] theorem State.sampledOnce_pinsOut (s : State) : (s.sampledOnce).pinsOut = .driven s.out := rfl
@[simp] theorem State.sampledOnce_cnt6 (s : State) : (s.sampledOnce).cnt6 = s.cnt6 := rfl
@[simp] theorem State.sampledOnce_cnt7 (s : State) : (s.sampledOnce).cnt7 = s.cnt7 := rfl
@[simp] theorem State.sampledOnce_halted (s : State) : (s.sampledOnce).halted = s.halted := rfl
@[simp] theorem State.sampledOnce_err (s : State) : (s.sampledOnce).err = s.err := rfl
@[simp] theorem State.sampledOnce_seq (s : State) : (s.sampledOnce).seq = s.seq := rfl
@[simp] theorem State.sampledOnce_hidden (s : State) : (s.sampledOnce).hidden = s.hidden := rfl
@[simp] theorem State.sampledOnce_rx (s : State) : (s.sampledOnce).rx = s.rx := rfl
@[simp] theorem State.sampledOnce_cfg (s : State) : (s.sampledOnce).cfg = s.cfg := rfl
@[simp] theorem State.sampledOnce_moves (s : State) : (s.sampledOnce).moves = s.moves := rfl
@[simp] theorem State.sampledOnce_env (s : State) : (s.sampledOnce).env = s.env.drop 1 := rfl
@[simp] theorem State.sampledOnce_draws (s : State) : (s.sampledOnce).draws = s.draws + 1 := rfl
@[simp] theorem State.sampledOnce_ticks (s : State) : (s.sampledOnce).ticks = s.ticks := rfl
@[simp] theorem State.sampledOnce_trace (s : State) : (s.sampledOnce).trace = s.trace := rfl
@[simp] theorem State.sampledOnce_responses (s : State) : (s.sampledOnce).responses = s.responses := rfl

/-! ### waited -/

@[simp] theorem State.waited_out (n : Nat) (s : State) : (s.waited n).out = s.out := rfl
@[simp] theorem State.waited_dir (n : Nat) (s : State) : (s.waited n).dir = s.dir := rfl
@[simp] theorem State.waited_dirset (n : Nat) (s : State) : (s.waited n).dirset = s.dirset := rfl
@[simp] theorem State.waited_pinsOut (n : Nat) (s : State) : (s.waited n).pinsOut = s.pinsOut := rfl
@[simp] theorem State.waited_cnt6 (n : Nat) (s : State) : (s.waited n).cnt6 = s.cnt6 := rfl
@[simp] theorem State.waited_cnt7 (n : Nat) (s : State) : (s.waited n).cnt7 = s.cnt7 := rfl
@[simp] theorem State.waited_halted (n : Nat) (s : State) : (s.waited n).halted = s.halted := rfl
@[simp] theorem State.waited_err (n : Nat) (s : State) : (s.waited n).err = s.err := rfl
@[simp] theorem State.waited_seq (n : Nat) (s : State) : (s.waited n).seq = s.seq := rfl
@[simp] theorem State.waited_hidden (n : Nat) (s : State) : (s.waited n).hidden = s.hidden := rfl
@[simp] theorem State.waited_rx (n : Nat) (s : State) : (s.waited n).rx = s.rx := rfl
@[simp] theorem State.waited_cfg (n : Nat) (s : State) : (s.waited n).cfg = s.cfg := rfl
@[simp] theorem State.waited_moves (n : Nat) (s : State) : (s.waited n).moves = s.moves := rfl
@[simp] theorem State.waited_env (n : Nat) (s : State) : (s.waited n).env = s.env := rfl
@[simp] theorem State.waited_draws (n : Nat) (s : State) : (s.waited n).draws = s.draws := rfl
@[simp] theorem State.waited_ticks (n : Nat) (s : State) : (s.waited n).ticks = s.ticks + n := rfl
@[simp] theorem State.waited_trace (n : Nat) (s : State) : (s.waited n).trace = s.trace := rfl
@[simp] theorem State.waited_responses (n : Nat) (s : State) : (s.waited n).responses = s.responses := rfl

/-! ### answered -/

@[simp] theorem State.answered_out (r : Response) (s : State) : (s.answered r).out = s.out := rfl
@[simp] theorem State.answered_dir (r : Response) (s : State) : (s.answered r).dir = s.dir := rfl
@[simp] theorem State.answered_dirset (r : Response) (s : State) : (s.answered r).dirset = s.dirset := rfl
@[simp] theorem State.answered_pinsOut (r : Response) (s : State) : (s.answered r).pinsOut = s.pinsOut := rfl
@[simp] theorem State.answered_cnt6 (r : Response) (s : State) : (s.answered r).cnt6 = s.cnt6 := rfl
@[simp] theorem State.answered_cnt7 (r : Response) (s : State) : (s.answered r).cnt7 = s.cnt7 := rfl
@[simp] theorem State.answered_halted (r : Response) (s : State) : (s.answered r).halted = s.halted := rfl
@[simp] theorem State.answered_err (r : Response) (s : State) : (s.answered r).err = s.err := rfl
@[simp] theorem State.answered_seq (r : Response) (s : State) : (s.answered r).seq = .ready := rfl
@[simp] theorem State.answered_hidden (r : Response) (s : State) : (s.answered r).hidden = .idle := rfl
@[simp] theorem State.answered_rx (r : Response) (s : State) : (s.answered r).rx = s.rx := rfl
@[simp] theorem State.answered_cfg (r : Response) (s : State) : (s.answered r).cfg = s.cfg := rfl
@[simp] theorem State.answered_moves (r : Response) (s : State) : (s.answered r).moves = s.moves := rfl
@[simp] theorem State.answered_env (r : Response) (s : State) : (s.answered r).env = s.env := rfl
@[simp] theorem State.answered_draws (r : Response) (s : State) : (s.answered r).draws = s.draws := rfl
@[simp] theorem State.answered_ticks (r : Response) (s : State) : (s.answered r).ticks = s.ticks := rfl
@[simp] theorem State.answered_trace (r : Response) (s : State) : (s.answered r).trace = s.trace := rfl
@[simp] theorem State.answered_responses (r : Response) (s : State) : (s.answered r).responses = s.responses ++ [r] := rfl

/-! ### exchangeLost -/

@[simp] theorem State.exchangeLost_out (s : State) : (s.exchangeLost).out = s.out := rfl
@[simp] theorem State.exchangeLost_dir (s : State) : (s.exchangeLost).dir = s.dir := rfl
@[simp] theorem State.exchangeLost_dirset (s : State) : (s.exchangeLost).dirset = s.dirset := rfl
@[simp] theorem State.exchangeLost_pinsOut (s : State) : (s.exchangeLost).pinsOut = .unknown := rfl
@[simp] theorem State.exchangeLost_cnt6 (s : State) : (s.exchangeLost).cnt6 = s.cnt6 := rfl
@[simp] theorem State.exchangeLost_cnt7 (s : State) : (s.exchangeLost).cnt7 = s.cnt7 := rfl
@[simp] theorem State.exchangeLost_halted (s : State) : (s.exchangeLost).halted = s.halted := rfl
@[simp] theorem State.exchangeLost_err (s : State) : (s.exchangeLost).err = s.err := rfl
@[simp] theorem State.exchangeLost_seq (s : State) : (s.exchangeLost).seq = s.seq := rfl
@[simp] theorem State.exchangeLost_hidden (s : State) : (s.exchangeLost).hidden = s.hidden := rfl
@[simp] theorem State.exchangeLost_rx (s : State) : (s.exchangeLost).rx = s.rx := rfl
@[simp] theorem State.exchangeLost_cfg (s : State) : (s.exchangeLost).cfg = s.cfg := rfl
@[simp] theorem State.exchangeLost_moves (s : State) : (s.exchangeLost).moves = s.moves := rfl
@[simp] theorem State.exchangeLost_env (s : State) : (s.exchangeLost).env = s.env.drop 1 := rfl
@[simp] theorem State.exchangeLost_draws (s : State) : (s.exchangeLost).draws = s.draws + 1 := rfl
@[simp] theorem State.exchangeLost_ticks (s : State) : (s.exchangeLost).ticks = s.ticks := rfl
@[simp] theorem State.exchangeLost_trace (s : State) : (s.exchangeLost).trace = s.trace ++ [⟨.unknown, s.ticks⟩] := rfl
@[simp] theorem State.exchangeLost_responses (s : State) : (s.exchangeLost).responses = s.responses := rfl

/-! ### advance -/

@[simp] theorem State.advance_out (s : State) : s.advance.out = s.out := by cases s with | _ _ _ _ _ _ _ _ _ q => cases q <;> rfl
@[simp] theorem State.advance_dir (s : State) : s.advance.dir = s.dir := by cases s with | _ _ _ _ _ _ _ _ _ q => cases q <;> rfl
@[simp] theorem State.advance_dirset (s : State) : s.advance.dirset = s.dirset := by cases s with | _ _ _ _ _ _ _ _ _ q => cases q <;> rfl
@[simp] theorem State.advance_pinsOut (s : State) : s.advance.pinsOut = s.pinsOut := by cases s with | _ _ _ _ _ _ _ _ _ q => cases q <;> rfl
@[simp] theorem State.advance_cnt6 (s : State) : s.advance.cnt6 = s.cnt6 := by cases s with | _ _ _ _ _ _ _ _ _ q => cases q <;> rfl
@[simp] theorem State.advance_cnt7 (s : State) : s.advance.cnt7 = s.cnt7 := by cases s with | _ _ _ _ _ _ _ _ _ q => cases q <;> rfl
@[simp] theorem State.advance_halted (s : State) : s.advance.halted = s.halted := by cases s with | _ _ _ _ _ _ _ _ _ q => cases q <;> rfl
@[simp] theorem State.advance_err (s : State) : s.advance.err = s.err := by cases s with | _ _ _ _ _ _ _ _ _ q => cases q <;> rfl
@[simp] theorem State.advance_hidden (s : State) : s.advance.hidden = s.hidden := by cases s with | _ _ _ _ _ _ _ _ _ q => cases q <;> rfl
@[simp] theorem State.advance_rx (s : State) : s.advance.rx = s.rx := by cases s with | _ _ _ _ _ _ _ _ _ q => cases q <;> rfl
@[simp] theorem State.advance_cfg (s : State) : s.advance.cfg = s.cfg := by cases s with | _ _ _ _ _ _ _ _ _ q => cases q <;> rfl
@[simp] theorem State.advance_moves (s : State) : s.advance.moves = s.moves := by cases s with | _ _ _ _ _ _ _ _ _ q => cases q <;> rfl
@[simp] theorem State.advance_env (s : State) : s.advance.env = s.env := by cases s with | _ _ _ _ _ _ _ _ _ q => cases q <;> rfl
@[simp] theorem State.advance_draws (s : State) : s.advance.draws = s.draws := by cases s with | _ _ _ _ _ _ _ _ _ q => cases q <;> rfl
@[simp] theorem State.advance_ticks (s : State) : s.advance.ticks = s.ticks := by cases s with | _ _ _ _ _ _ _ _ _ q => cases q <;> rfl
@[simp] theorem State.advance_trace (s : State) : s.advance.trace = s.trace := by cases s with | _ _ _ _ _ _ _ _ _ q => cases q <;> rfl
@[simp] theorem State.advance_responses (s : State) : s.advance.responses = s.responses := by cases s with | _ _ _ _ _ _ _ _ _ q => cases q <;> rfl

@[simp] theorem State.advance_exec (s : State) (c : Instr) (k : Nat) :
    State.advance { s with seq := .exec c k } = { s with seq := .exec c (k + 1) } := rfl

theorem State.advance_seq (s : State) (c : Instr) (k : Nat) (h : s.seq = .exec c k) :
    s.advance.seq = .exec c (k + 1) := by simp [State.advance, h]

/-! ### endWait -/

@[simp] theorem State.endWait_out (n : Nat) (s : State) : (s.endWait n).out = s.out := by simp [State.endWait]
@[simp] theorem State.endWait_dir (n : Nat) (s : State) : (s.endWait n).dir = s.dir := by simp [State.endWait]
@[simp] theorem State.endWait_dirset (n : Nat) (s : State) : (s.endWait n).dirset = s.dirset := by simp [State.endWait]
@[simp] theorem State.endWait_pinsOut (n : Nat) (s : State) : (s.endWait n).pinsOut = s.pinsOut := by simp [State.endWait]
@[simp] theorem State.endWait_cnt6 (n : Nat) (s : State) : (s.endWait n).cnt6 = s.cnt6 := by simp [State.endWait]
@[simp] theorem State.endWait_cnt7 (n : Nat) (s : State) : (s.endWait n).cnt7 = s.cnt7 := by simp [State.endWait]
@[simp] theorem State.endWait_halted (n : Nat) (s : State) : (s.endWait n).halted = s.halted := by simp [State.endWait]
@[simp] theorem State.endWait_err (n : Nat) (s : State) : (s.endWait n).err = s.err := by simp [State.endWait]
@[simp] theorem State.endWait_hidden (n : Nat) (s : State) : (s.endWait n).hidden = { s.hidden with waitLeft := none } := by simp [State.endWait]
@[simp] theorem State.endWait_rx (n : Nat) (s : State) : (s.endWait n).rx = s.rx := by simp [State.endWait]
@[simp] theorem State.endWait_cfg (n : Nat) (s : State) : (s.endWait n).cfg = s.cfg := by simp [State.endWait]
@[simp] theorem State.endWait_moves (n : Nat) (s : State) : (s.endWait n).moves = s.moves := by simp [State.endWait]
@[simp] theorem State.endWait_env (n : Nat) (s : State) : (s.endWait n).env = s.env := by simp [State.endWait]
@[simp] theorem State.endWait_draws (n : Nat) (s : State) : (s.endWait n).draws = s.draws := by simp [State.endWait]
@[simp] theorem State.endWait_ticks (n : Nat) (s : State) : (s.endWait n).ticks = s.ticks + n := by simp [State.endWait]
@[simp] theorem State.endWait_trace (n : Nat) (s : State) : (s.endWait n).trace = s.trace := by simp [State.endWait]
@[simp] theorem State.endWait_responses (n : Nat) (s : State) : (s.endWait n).responses = s.responses := by simp [State.endWait]

/-! ### applyReset -/

@[simp] theorem applyReset_out (s : State) : (applyReset s).out = 0#6 := rfl
@[simp] theorem applyReset_dir (s : State) : (applyReset s).dir = 0#8 := rfl
@[simp] theorem applyReset_dirset (s : State) : (applyReset s).dirset = false := rfl
@[simp] theorem applyReset_pinsOut (s : State) : (applyReset s).pinsOut = .undriven := rfl
@[simp] theorem applyReset_cnt6 (s : State) : (applyReset s).cnt6 = 0 := rfl
@[simp] theorem applyReset_cnt7 (s : State) : (applyReset s).cnt7 = 0 := rfl
@[simp] theorem applyReset_halted (s : State) : (applyReset s).halted = false := rfl
@[simp] theorem applyReset_err (s : State) : (applyReset s).err = 0#4 := rfl
@[simp] theorem applyReset_seq (s : State) : (applyReset s).seq = .ready := rfl
@[simp] theorem applyReset_hidden (s : State) : (applyReset s).hidden = .idle := rfl
@[simp] theorem applyReset_rx (s : State) : (applyReset s).rx = [] := rfl
@[simp] theorem applyReset_cfg (s : State) : (applyReset s).cfg = s.cfg := rfl
@[simp] theorem applyReset_moves (s : State) : (applyReset s).moves = s.moves := rfl
@[simp] theorem applyReset_env (s : State) : (applyReset s).env = s.env := rfl
@[simp] theorem applyReset_draws (s : State) : (applyReset s).draws = s.draws := rfl
@[simp] theorem applyReset_ticks (s : State) : (applyReset s).ticks = s.ticks := rfl
@[simp] theorem applyReset_trace (s : State) : (applyReset s).trace = s.trace ++ [⟨.undriven, s.ticks⟩] := rfl
@[simp] theorem applyReset_responses (s : State) : (applyReset s).responses = s.responses := rfl

end Sys2Proof.Machine
end

