-- ==== Sys2Proof/Laws/Ops.lean ====
section
/-! SUPPORT. One law per shared operation: exchanges, commits, samples, faults, micro-steps, and a command's run. -/

namespace Sys2Proof.Machine

/-! ### Exchanges -/

/-- The environment's answers depend on `env` and `draws` alone. -/
theorem exchangeAt_congr {s t : State} (he : s.env = t.env) (hd : s.draws = t.draws) (n : Nat) :
    s.exchangeAt n = t.exchangeAt n := by
  simp [State.exchangeAt, he, hd]

/-- After `k` exchanges, the n-th answer is the `k + n`-th of before. -/
theorem exchangeAt_shift {s t : State} (k : Nat) (he : t.env = s.env.drop k) (hd : t.draws = s.draws + k)
    (n : Nat) : t.exchangeAt n = s.exchangeAt (k + n) := by
  simp [State.exchangeAt, he, hd, Nat.add_assoc]

@[simp] theorem exchangeAt_committed (s : State) (v : Latch) (n : Nat) :
    (s.committed v).exchangeAt n = s.exchangeAt (1 + n) := exchangeAt_shift 1 rfl rfl n

@[simp] theorem exchangeAt_sampledOnce (s : State) (n : Nat) :
    s.sampledOnce.exchangeAt n = s.exchangeAt (1 + n) := exchangeAt_shift 1 rfl rfl n

@[simp] theorem exchangeAt_exchangeLost (s : State) (n : Nat) :
    s.exchangeLost.exchangeAt n = s.exchangeAt (1 + n) := exchangeAt_shift 1 rfl rfl n

@[simp] theorem exchangeAt_waited (s : State) (k n : Nat) :
    (s.waited k).exchangeAt n = s.exchangeAt n := rfl

/-- Fewer exchanges succeed where more do. -/
theorem exchangesSucceed_mono {s : State} {m n : Nat} (h : s.exchangesSucceed n) (hm : m ≤ n) :
    s.exchangesSucceed m := fun k hk => h k (by omega)

theorem exchangesSucceed_committed {s : State} {n : Nat} (h : s.exchangesSucceed (n + 1)) (v : Latch) :
    (s.committed v).exchangesSucceed n := fun k hk => by
  simpa using h (1 + k) (by omega)

theorem exchangesSucceed_sampledOnce {s : State} {n : Nat} (h : s.exchangesSucceed (n + 1)) :
    s.sampledOnce.exchangesSucceed n := fun k hk => by
  simpa using h (1 + k) (by omega)

theorem exchangesSucceed_waited {s : State} {n : Nat} (h : s.exchangesSucceed n) (k : Nat) :
    (s.waited k).exchangesSucceed n := h

/-- A commit whose exchange succeeds. -/
theorem commit_done {s : State} (h : exchangeSucceeds (s.exchangeAt 0) = true) :
    commit s = .going (s.committed s.out) := by
  unfold commit
  split
  · rfl
  · next hf => simp [hf, exchangeSucceeds] at h

/-- A commit whose exchange fails. -/
theorem commit_failed {s : State} (h : exchangeSucceeds (s.exchangeAt 0) = false) :
    commit s = .raised .deviceUnavailable s.exchangeLost := by
  unfold commit
  split
  · next p hp => simp [hp, exchangeSucceeds] at h
  · rfl

/-- A sample whose exchange succeeds keeps what the pins showed. -/
theorem takeSample_done {s : State} {p : Sensors} (h : s.exchangeAt 0 = .done p) :
    takeSample s = .going { s.sampledOnce with hidden := { s.hidden with sample := some p } } := by
  unfold takeSample; rw [h]; rfl

/-- A sample whose exchange fails. -/
theorem takeSample_failed {s : State} (h : exchangeSucceeds (s.exchangeAt 0) = false) :
    takeSample s = .raised .deviceUnavailable s.exchangeLost := by
  unfold takeSample
  split
  · next p hp => simp [hp, exchangeSucceeds] at h
  · rfl

theorem exchange_done_of_succeeds {x : Exchange} (h : exchangeSucceeds x = true) : ∃ p, x = .done p := by
  cases x with
  | failed => simp [exchangeSucceeds] at h
  | done p => exact ⟨p, rfl⟩

/-! ### Faults -/

/-- The cleanup without a direction mask performs no exchange. -/
theorem faultCleanup_unconfigured {e : FaultCode} {s : State} (h : s.dirset = false) :
    faultCleanup e s = s.enterFault e := by simp [faultCleanup, h]

/-- The cleanup whose commit succeeds. -/
theorem faultCleanup_done {e : FaultCode} {s : State} (h : s.dirset = true)
    (hx : exchangeSucceeds (s.exchangeAt 0) = true) :
    faultCleanup e s = (s.enterFault e).committed 0#6 := by
  have : commit (s.enterFault e) = .going ((s.enterFault e).committed 0#6) := commit_done hx
  simp [faultCleanup, h, this]

/-- The cleanup whose commit fails. -/
theorem faultCleanup_failed {e : FaultCode} {s : State} (h : s.dirset = true)
    (hx : exchangeSucceeds (s.exchangeAt 0) = false) :
    faultCleanup e s = (s.enterFault e).exchangeLost := by
  have : commit (s.enterFault e) = .raised .deviceUnavailable (s.enterFault e).exchangeLost := commit_failed hx
  simp [faultCleanup, h, this]

/-- The three ways a cleanup goes. -/
theorem faultCleanup_cases (e : FaultCode) (s : State) :
    (s.dirset = false ∧ faultCleanup e s = s.enterFault e)
      ∨ (s.dirset = true ∧ exchangeSucceeds (s.exchangeAt 0) = true
          ∧ faultCleanup e s = (s.enterFault e).committed 0#6)
      ∨ (s.dirset = true ∧ exchangeSucceeds (s.exchangeAt 0) = false
          ∧ faultCleanup e s = (s.enterFault e).exchangeLost) := by
  cases h : s.dirset with
  | false => exact .inl ⟨rfl, faultCleanup_unconfigured h⟩
  | true =>
    cases hx : exchangeSucceeds (s.exchangeAt 0) with
    | true => exact .inr (.inl ⟨rfl, rfl, faultCleanup_done h hx⟩)
    | false => exact .inr (.inr ⟨rfl, rfl, faultCleanup_failed h hx⟩)

@[simp] theorem faultCleanup_out (e : FaultCode) (s : State) : (faultCleanup e s).out = 0#6 := by
  rcases faultCleanup_cases e s with h | h | h <;> simp [h]

@[simp] theorem faultCleanup_err (e : FaultCode) (s : State) : (faultCleanup e s).err = e.code := by
  rcases faultCleanup_cases e s with h | h | h <;> simp [h]

@[simp] theorem faultCleanup_hidden (e : FaultCode) (s : State) : (faultCleanup e s).hidden = .idle := by
  rcases faultCleanup_cases e s with h | h | h <;> simp [h]

@[simp] theorem faultCleanup_dir (e : FaultCode) (s : State) : (faultCleanup e s).dir = s.dir := by
  rcases faultCleanup_cases e s with h | h | h <;> simp [h]

@[simp] theorem faultCleanup_dirset (e : FaultCode) (s : State) : (faultCleanup e s).dirset = s.dirset := by
  rcases faultCleanup_cases e s with h | h | h <;> simp [h]

@[simp] theorem faultCleanup_cnt6 (e : FaultCode) (s : State) : (faultCleanup e s).cnt6 = s.cnt6 := by
  rcases faultCleanup_cases e s with h | h | h <;> simp [h]

@[simp] theorem faultCleanup_cnt7 (e : FaultCode) (s : State) : (faultCleanup e s).cnt7 = s.cnt7 := by
  rcases faultCleanup_cases e s with h | h | h <;> simp [h]

@[simp] theorem faultCleanup_halted (e : FaultCode) (s : State) : (faultCleanup e s).halted = s.halted := by
  rcases faultCleanup_cases e s with h | h | h <;> simp [h]

@[simp] theorem faultCleanup_seq (e : FaultCode) (s : State) : (faultCleanup e s).seq = s.seq := by
  rcases faultCleanup_cases e s with h | h | h <;> simp [h]

@[simp] theorem faultCleanup_rx (e : FaultCode) (s : State) : (faultCleanup e s).rx = s.rx := by
  rcases faultCleanup_cases e s with h | h | h <;> simp [h]

@[simp] theorem faultCleanup_cfg (e : FaultCode) (s : State) : (faultCleanup e s).cfg = s.cfg := by
  rcases faultCleanup_cases e s with h | h | h <;> simp [h]

@[simp] theorem faultCleanup_moves (e : FaultCode) (s : State) : (faultCleanup e s).moves = s.moves := by
  rcases faultCleanup_cases e s with h | h | h <;> simp [h]

@[simp] theorem faultCleanup_ticks (e : FaultCode) (s : State) : (faultCleanup e s).ticks = s.ticks := by
  rcases faultCleanup_cases e s with h | h | h <;> simp [h]

@[simp] theorem faultCleanup_responses (e : FaultCode) (s : State) : (faultCleanup e s).responses = s.responses := by
  rcases faultCleanup_cases e s with h | h | h <;> simp [h]

@[simp] theorem takeFault_out (e : FaultCode) (s : State) : (takeFault e s).out = 0#6 := by
  simp [takeFault, faultRespond]

@[simp] theorem takeFault_err (e : FaultCode) (s : State) : (takeFault e s).err = e.code := by
  simp [takeFault, faultRespond]

@[simp] theorem takeFault_hidden (e : FaultCode) (s : State) : (takeFault e s).hidden = .idle := by
  simp [takeFault, faultRespond]

@[simp] theorem takeFault_halted (e : FaultCode) (s : State) : (takeFault e s).halted = true := by
  simp [takeFault, faultRespond]

@[simp] theorem takeFault_seq (e : FaultCode) (s : State) : (takeFault e s).seq = .halt := by
  simp [takeFault, faultRespond]

@[simp] theorem takeFault_responses (e : FaultCode) (s : State) : (takeFault e s).responses = s.responses ++ [plainResponse e.code e.code] := by
  simp [takeFault, faultRespond]

@[simp] theorem takeFault_dir (e : FaultCode) (s : State) : (takeFault e s).dir = s.dir := by
  simp [takeFault, faultRespond]

@[simp] theorem takeFault_dirset (e : FaultCode) (s : State) : (takeFault e s).dirset = s.dirset := by
  simp [takeFault, faultRespond]

@[simp] theorem takeFault_cnt6 (e : FaultCode) (s : State) : (takeFault e s).cnt6 = s.cnt6 := by
  simp [takeFault, faultRespond]

@[simp] theorem takeFault_cnt7 (e : FaultCode) (s : State) : (takeFault e s).cnt7 = s.cnt7 := by
  simp [takeFault, faultRespond]

@[simp] theorem takeFault_rx (e : FaultCode) (s : State) : (takeFault e s).rx = s.rx := by
  simp [takeFault, faultRespond]

@[simp] theorem takeFault_cfg (e : FaultCode) (s : State) : (takeFault e s).cfg = s.cfg := by
  simp [takeFault, faultRespond]

@[simp] theorem takeFault_moves (e : FaultCode) (s : State) : (takeFault e s).moves = s.moves := by
  simp [takeFault, faultRespond]

@[simp] theorem takeFault_ticks (e : FaultCode) (s : State) : (takeFault e s).ticks = s.ticks := by
  simp [takeFault, faultRespond]

/-- Taking a fault looks at neither `SEQ` nor the hidden values. -/
@[simp] theorem takeFault_at (e : FaultCode) (s : State) (q : Seq) (h : Hidden) :
    takeFault e { s with seq := q, hidden := h } = takeFault e s := by
  rcases faultCleanup_cases e s with ⟨hd, hc⟩ | ⟨hd, hx, hc⟩ | ⟨hd, hx, hc⟩
  · rw [takeFault, takeFault, hc, faultCleanup_unconfigured (s := { s with seq := q, hidden := h }) hd]; rfl
  · rw [takeFault, takeFault, hc, faultCleanup_done (s := { s with seq := q, hidden := h }) hd hx]; rfl
  · rw [takeFault, takeFault, hc, faultCleanup_failed (s := { s with seq := q, hidden := h }) hd hx]; rfl

/-! ### A command in progress -/

/-- `s` with command `c` in progress at micro-step `k`, its hidden values `h`. -/
def State.inProgress (c : Instr) (k : Nat) (h : Hidden) (s : State) : State :=
  { s with seq := .exec c k, hidden := h }

theorem start_eq_inProgress (c : Instr) (s : State) : s.start c = s.inProgress c 0 .idle := rfl

@[simp] theorem inProgress_sampled (c : Instr) (k : Nat) (h : Hidden) (s : State) :
    (s.inProgress c k h).sampled = h.sample.getD 0#2 := rfl

@[simp] theorem takeFault_inProgress (e : FaultCode) (c : Instr) (k : Nat) (h : Hidden) (s : State) :
    takeFault e (s.inProgress c k h) = takeFault e s := takeFault_at e s _ h

@[simp] theorem exchangeAt_inProgress (c : Instr) (k n : Nat) (h : Hidden) (s : State) :
    (s.inProgress c k h).exchangeAt n = s.exchangeAt n := rfl

@[simp] theorem answered_inProgress (c : Instr) (k : Nat) (h : Hidden) (s : State) (r : Response) :
    (s.inProgress c k h).answered r = s.answered r := rfl

/-! ### Micro-steps -/

/-- A micro-step with a commit, its register updates done, whose exchange succeeds. -/
theorem perform_commit_done {us : List RegUpdate} {c : Instr} {k : Nat} {h : Hidden} {s t : State} {h' : Hidden}
    (hw : h.waitLeft = none) (ht : us.foldl applyUpdate (s.inProgress c k h) = t.inProgress c k h')
    (hx : exchangeSucceeds (t.exchangeAt 0) = true) :
    perform ⟨us, .commit⟩ (s.inProgress c k h) = .going ((t.committed t.out).inProgress c (k + 1) h') := by
  have he : enterMicro ⟨us, .commit⟩ (s.inProgress c k h) = t.inProgress c k h' := by
    simp [enterMicro, State.inProgress, hw] at *; exact ht
  have hc := commit_done (s := t.inProgress c k h') (by simpa using hx)
  simp only [perform, he, hc, Flow.andThen]
  rfl

/-- A micro-step with a commit, its register updates done, whose exchange fails. -/
theorem perform_commit_failed {us : List RegUpdate} {c : Instr} {k : Nat} {h : Hidden} {s t : State} {h' : Hidden}
    (hw : h.waitLeft = none) (ht : us.foldl applyUpdate (s.inProgress c k h) = t.inProgress c k h')
    (hx : exchangeSucceeds (t.exchangeAt 0) = false) :
    perform ⟨us, .commit⟩ (s.inProgress c k h)
      = .raised .deviceUnavailable (t.exchangeLost.inProgress c k h') := by
  have he : enterMicro ⟨us, .commit⟩ (s.inProgress c k h) = t.inProgress c k h' := by
    simp [enterMicro, State.inProgress, hw] at *; exact ht
  have hc := commit_failed (s := t.inProgress c k h') (by simpa using hx)
  simp only [perform, he, hc, Flow.andThen]
  rfl

/-- A micro-step with a sample whose exchange succeeds. -/
theorem perform_sample_done {us : List RegUpdate} {c : Instr} {k : Nat} {h : Hidden} {s t : State} {h' : Hidden}
    {p : Sensors} (hw : h.waitLeft = none)
    (ht : us.foldl applyUpdate (s.inProgress c k h) = t.inProgress c k h') (hx : t.exchangeAt 0 = .done p) :
    perform ⟨us, .sample⟩ (s.inProgress c k h)
      = .going (t.sampledOnce.inProgress c (k + 1) { h' with sample := some p }) := by
  have he : enterMicro ⟨us, .sample⟩ (s.inProgress c k h) = t.inProgress c k h' := by
    simp [enterMicro, State.inProgress, hw] at *; exact ht
  have hc := takeSample_done (s := t.inProgress c k h') (p := p) (by simpa using hx)
  simp only [perform, he, hc, Flow.andThen]
  rfl

/-- A micro-step with a sample whose exchange fails. -/
theorem perform_sample_failed {us : List RegUpdate} {c : Instr} {k : Nat} {h : Hidden} {s t : State} {h' : Hidden}
    (hw : h.waitLeft = none) (ht : us.foldl applyUpdate (s.inProgress c k h) = t.inProgress c k h')
    (hx : exchangeSucceeds (t.exchangeAt 0) = false) :
    perform ⟨us, .sample⟩ (s.inProgress c k h)
      = .raised .deviceUnavailable (t.exchangeLost.inProgress c k h') := by
  have he : enterMicro ⟨us, .sample⟩ (s.inProgress c k h) = t.inProgress c k h' := by
    simp [enterMicro, State.inProgress, hw] at *; exact ht
  have hc := takeSample_failed (s := t.inProgress c k h') (by simpa using hx)
  simp only [perform, he, hc, Flow.andThen]
  rfl

/-- A whole Wait. -/
theorem perform_wait {us : List RegUpdate} {c : Instr} {k : Nat} {h : Hidden} {s t : State} {h' : Hidden}
    (d : Delay) (hw : h.waitLeft = none) (hw' : h'.waitLeft = none)
    (ht : us.foldl applyUpdate (s.inProgress c k h) = t.inProgress c k h') :
    perform ⟨us, .wait d⟩ (s.inProgress c k h)
      = .going ((t.waited (delayTicks t.cfg d)).inProgress c (k + 1) h') := by
  have he : enterMicro ⟨us, .wait d⟩ (s.inProgress c k h) = t.inProgress c k h' := by
    simp [enterMicro, State.inProgress, hw] at *; exact ht
  cases h'
  simp only [perform, he, State.endWait, waitTicks, State.inProgress] at *
  subst hw'
  rfl

/-- The response ends the command. -/
theorem perform_respond {c : Instr} {k : Nat} {h : Hidden} {s : State} (r : Report) (hw : h.waitLeft = none) :
    perform ⟨[], .respond r⟩ (s.inProgress c k h)
      = .going (s.answered (okResponse r (s.inProgress c k h))) := by
  simp [perform, enterMicro, State.inProgress, hw, finish, State.answered, State.respond]

@[simp] theorem runSteps_nil (s : State) : runSteps [] s = .going s := rfl

@[simp] theorem runSteps_cons (m : MicroStep) (ms : List MicroStep) (s : State) :
    runSteps (m :: ms) s = (perform m s).andThen (runSteps ms) := rfl

@[simp] theorem andThen_going (s : State) (f : State → Flow) : (Flow.going s).andThen f = f s := rfl

@[simp] theorem andThen_raised (e : FaultCode) (s : State) (f : State → Flow) :
    (Flow.raised e s).andThen f = .raised e s := rfl

/-- Micro-steps in two stretches. -/
theorem runSteps_append (ms ns : List MicroStep) (s : State) :
    runSteps (ms ++ ns) s = (runSteps ms s).andThen (runSteps ns) := by
  induction ms generalizing s with
  | nil => rfl
  | cons m ms ih =>
    simp only [List.cons_append, runSteps_cons]
    cases perform m s with
    | going t => exact ih t
    | raised e t => rfl

/-- A straight plan runs its micro-steps. -/
theorem runPlan_straight (chk : Bool → Option FaultCode) (ms : List MicroStep) (s : State) :
    runPlan (straightPlan chk ms) s = runSteps ms s := by
  simp only [runPlan, straightPlan]
  cases runSteps ms s <;> rfl

/-! ### Commands -/

/-- A command refused while halted. -/
theorem runCommand_halted {c : Instr} {p : Plan} {s : State} (h : s.halted = true) :
    runCommand c p s = .next (refuseHalted s) := by simp [runCommand, h]

/-- A command whose checks raise a fault. -/
theorem runCommand_fault {c : Instr} {p : Plan} {s : State} {e : FaultCode} (h : s.halted = false)
    (hc : p.check s.dirset = some e) : runCommand c p s = .next (takeFault e s) := by simp [runCommand, h, hc]

/-- A command whose checks pass. -/
theorem runCommand_run {c : Instr} {p : Plan} {s : State} (h : s.halted = false)
    (hc : p.check s.dirset = none) :
    runCommand c p s = .next (runPlan p (s.inProgress c 0 .idle)).settle := by
  simp [runCommand, h, hc, start_eq_inProgress]

/-- The three ways a command goes. -/
theorem runCommand_cases (c : Instr) (p : Plan) (s : State) :
    (s.halted = true ∧ runCommand c p s = .next (refuseHalted s))
      ∨ (s.halted = false ∧ (∃ e, p.check s.dirset = some e ∧ runCommand c p s = .next (takeFault e s)))
      ∨ (s.halted = false ∧ p.check s.dirset = none
          ∧ runCommand c p s = .next (runPlan p (s.inProgress c 0 .idle)).settle) := by
  cases h : s.halted with
  | true => exact .inl ⟨rfl, runCommand_halted h⟩
  | false =>
    cases hc : p.check s.dirset with
    | some e => exact .inr (.inl ⟨rfl, e, rfl, runCommand_fault h hc⟩)
    | none => exact .inr (.inr ⟨rfl, rfl, runCommand_run h hc⟩)

/-- Every meaning is its command's plan, run. -/
theorem exec_eq_runCommand (i : Instr) (s : State) : exec i s = runCommand i (planOf s.cfg i) s := by
  cases i <;> rfl

end Sys2Proof.Machine
end

