-- ==== Sys2Proof/Laws/Moves.lean ====
section
/-! SUPPORT. A micro-step neither looks at the host's moves and a partial word nor changes them; what a step does at each position inside a command. -/

namespace Sys2Proof.Machine

/-- `s` with other moves of the host to come. -/
def State.withMoves (ms : List Move) (s : State) : State := { s with moves := ms }

/-- The state a stretch of a command ends in, with other moves. -/
def Flow.withMoves (ms : List Move) : Flow → Flow
  | .going s => .going (s.withMoves ms)
  | .raised e s => .raised e (s.withMoves ms)

theorem applyUpdate_withMoves (s : State) (u : RegUpdate) (ms : List Move) :
    applyUpdate (s.withMoves ms) u = (applyUpdate s u).withMoves ms := by cases u <;> rfl

theorem enterMicro_withMoves (m : MicroStep) (s : State) (ms : List Move) :
    enterMicro m (s.withMoves ms) = (enterMicro m s).withMoves ms := by
  have hf : ∀ (us : List RegUpdate) (s : State),
      us.foldl applyUpdate (s.withMoves ms) = (us.foldl applyUpdate s).withMoves ms := by
    intro us
    induction us with
    | nil => exact fun _ => rfl
    | cons u us ih => exact fun s => by simp only [List.foldl_cons, applyUpdate_withMoves, ih]
  unfold enterMicro
  split
  · rw [if_pos ‹_›]
  · rw [if_neg ‹_›]; exact hf _ _

theorem advance_withMoves (s : State) (ms : List Move) : (s.withMoves ms).advance = s.advance.withMoves ms := by
  unfold State.advance
  rw [show (s.withMoves ms).seq = s.seq from rfl]
  cases s.seq <;> rfl

theorem commit_withMoves (s : State) (ms : List Move) : commit (s.withMoves ms) = (commit s).withMoves ms := by
  cases hx : exchangeSucceeds (s.exchangeAt 0) with
  | true => rw [commit_done (s := s) hx, commit_done (s := s.withMoves ms) hx]; rfl
  | false => rw [commit_failed (s := s) hx, commit_failed (s := s.withMoves ms) hx]; rfl

theorem takeSample_withMoves (s : State) (ms : List Move) :
    takeSample (s.withMoves ms) = (takeSample s).withMoves ms := by
  cases hx : exchangeSucceeds (s.exchangeAt 0) with
  | true =>
    obtain ⟨p, hp⟩ := exchange_done_of_succeeds hx
    rw [takeSample_done (s := s) hp, takeSample_done (s := s.withMoves ms) hp]; rfl
  | false => rw [takeSample_failed (s := s) hx, takeSample_failed (s := s.withMoves ms) hx]; rfl

theorem endWait_withMoves (n : Nat) (s : State) (ms : List Move) :
    (s.withMoves ms).endWait n = (s.endWait n).withMoves ms :=
  advance_withMoves { s with ticks := s.ticks + n, hidden := { s.hidden with waitLeft := none } } ms

/-- A micro-step does the same whatever the host is about to do. -/
theorem perform_withMoves (m : MicroStep) (s : State) (ms : List Move) :
    perform m (s.withMoves ms) = (perform m s).withMoves ms := by
  have ha : ∀ x : Flow, ((x.withMoves ms).andThen fun t => .going t.advance)
      = (x.andThen fun t => .going t.advance).withMoves ms := by
    intro x
    cases x with
    | going t => exact congrArg Flow.going (advance_withMoves t ms)
    | raised e t => rfl
  unfold perform
  rw [enterMicro_withMoves]
  cases m.prim with
  | commit => simp only [commit_withMoves, ha]
  | sample => simp only [takeSample_withMoves, ha]
  | wait d => exact congrArg Flow.going (endWait_withMoves _ _ ms)
  | respond r => cases r <;> rfl

theorem faultCleanup_withMoves (e : FaultCode) (s : State) (ms : List Move) :
    faultCleanup e (s.withMoves ms) = (faultCleanup e s).withMoves ms := by
  rcases faultCleanup_cases e s with ⟨hd, hc⟩ | ⟨hd, hx, hc⟩ | ⟨hd, hx, hc⟩
  · rw [hc, faultCleanup_unconfigured (s := s.withMoves ms) hd]; rfl
  · rw [hc, faultCleanup_done (s := s.withMoves ms) hd hx]; rfl
  · rw [hc, faultCleanup_failed (s := s.withMoves ms) hd hx]; rfl

/-- A micro-step of fault entry does the same whatever the host is about to do. -/
theorem faultMicro_withMoves (e : FaultCode) (cleaned : Bool) (s : State) (ms : List Move) :
    faultMicro e cleaned (s.withMoves ms) = (faultMicro e cleaned s).withMoves ms := by
  cases cleaned with
  | true => rfl
  | false =>
    simp only [faultMicro, Bool.false_eq_true, if_false, takeFault, faultCleanup_withMoves]
    rw [show (s.withMoves ms).dirset = s.dirset from rfl]
    split <;> rfl

/-- A step inside a command performs its micro-step, if the host's next move is neither a tick nor a reset. -/
theorem step_exec {s : State} {c : Instr} {k : Nat} (hq : s.seq = .exec c k)
    (h : s.moves = [] ∨ ∃ mv ms, s.moves = mv :: ms ∧ mv.brings = true) : step s = microStep c k s := by
  rcases h with h | ⟨mv, ms, h, hb⟩
  · simp [step, act, hq, actExec, h]
  · cases mv <;> first | (simp [Move.brings] at hb; done) | simp [step, act, hq, actExec, h]

/-- As `step_exec`, inside fault entry. -/
theorem step_faulting {s : State} {e : FaultCode} {cleaned : Bool} (hq : s.seq = .faulting e cleaned)
    (h : s.moves = [] ∨ ∃ mv ms, s.moves = mv :: ms ∧ mv.brings = true) :
    step s = .next (faultMicro e cleaned s) := by
  rcases h with h | ⟨mv, ms, h, hb⟩
  · simp [step, act, hq, actFaulting, h]
  · cases mv <;> first | (simp [Move.brings] at hb; done) | simp [step, act, hq, actFaulting, h]

/-- A state that a step leaves as it is stays in every run. -/
theorem run_of_fixed {s : State} (h : step s = .next s) (n : Nat) : Host.Core.run core n s = .next s := by
  induction n with
  | zero => rfl
  | succ n ih =>
    refine (Host.Core.run.eq_2 core s n).trans ?_
    rw [show core.step s = .next s from h]
    exact ih

/-- What a run of one step more reaches comes after a step. -/
theorem run_succ_next {n : Nat} {s t : State} (h : Host.Core.run core (n + 1) s = .next t) :
    ∃ u, step s = .next u ∧ Host.Core.run core n u = .next t := by
  replace h := (Host.Core.run.eq_2 core s n).symm.trans h
  cases hu : step s with
  | next u => rw [show core.step s = .next u from hu] at h; exact ⟨u, rfl, h⟩
  | fault r => rw [show core.step s = .fault r from hu] at h; cases h
  | refused r => rw [show core.step s = .refused r from hu] at h; cases h

end Sys2Proof.Machine
end

