-- ==== Sys2Proof/Laws/PerInstr.lean ====
section
/-! SUPPORT. Statements made per instruction. Encoding: a command's word has its row's opcode in `OP` and 0 in `C` (30_encoding R72, R74). -/

namespace Sys2Proof.Laws.Encoding

/-- The word of a command has the opcode byte of its row of 30_encoding R74, and `C` = 0 (R72). -/
def Statement (i : Instr) : Prop :=
  wordOp (encode i) = wordOp i.row.matchBits ∧ wordC (encode i) = 0#8

theorem setdir (a : Byte) : Statement (.setdir a) := by
  rw [Statement, encode, wordOp_mkWord, wordC_mkWord]
  exact ⟨by simp only [Instr.row]; decide, rfl⟩

theorem write (mask value : Byte) : Statement (.write mask value) := by
  rw [Statement, encode, wordOp_mkWord, wordC_mkWord]
  exact ⟨by simp only [Instr.row]; decide, rfl⟩

theorem read : Statement (.read) := by
  rw [Statement, encode, wordOp_mkWord, wordC_mkWord]
  exact ⟨by simp only [Instr.row]; decide, rfl⟩

theorem set (a : Byte) : Statement (.set a) := by
  rw [Statement, encode, wordOp_mkWord, wordC_mkWord]
  exact ⟨by simp only [Instr.row]; decide, rfl⟩

theorem clr (a : Byte) : Statement (.clr a) := by
  rw [Statement, encode, wordOp_mkWord, wordC_mkWord]
  exact ⟨by simp only [Instr.row]; decide, rfl⟩

theorem tgl (a : Byte) : Statement (.tgl a) := by
  rw [Statement, encode, wordOp_mkWord, wordC_mkWord]
  exact ⟨by simp only [Instr.row]; decide, rfl⟩

theorem bridge (a b : Byte) : Statement (.bridge a b) := by
  rw [Statement, encode, wordOp_mkWord, wordC_mkWord]
  exact ⟨by simp only [Instr.row]; decide, rfl⟩

theorem manv (a : Byte) : Statement (.manv a) := by
  rw [Statement, encode, wordOp_mkWord, wordC_mkWord]
  exact ⟨by simp only [Instr.row]; decide, rfl⟩

theorem sense : Statement (.sense) := by
  rw [Statement, encode, wordOp_mkWord, wordC_mkWord]
  exact ⟨by simp only [Instr.row]; decide, rfl⟩

theorem navtick : Statement (.navtick) := by
  rw [Statement, encode, wordOp_mkWord, wordC_mkWord]
  exact ⟨by simp only [Instr.row]; decide, rfl⟩

theorem contick : Statement (.contick) := by
  rw [Statement, encode, wordOp_mkWord, wordC_mkWord]
  exact ⟨by simp only [Instr.row]; decide, rfl⟩

theorem contickKey (key : Byte) : Statement (.contickKey key) := by
  rw [Statement, encode, wordOp_mkWord, wordC_mkWord]
  exact ⟨by simp only [Instr.row]; decide, rfl⟩

theorem zeroall : Statement (.zeroall) := by
  rw [Statement, encode, wordOp_mkWord, wordC_mkWord]
  exact ⟨by simp only [Instr.row]; decide, rfl⟩

end Sys2Proof.Laws.Encoding
end

