-- ==== Sys2Proof/Laws/Run.lean ====
section
/-! SUPPORT. How whole stretches of micro-steps run: one commit, one sample, a list of channel writes, a maneuver. -/

namespace Sys2Proof.Machine

/-! ### Commands by their checks -/

/-- A command whose checks raise a fault takes it. -/
theorem exec_fault {i : Instr} {s : State} {e : FaultCode} (h : s.halted = false)
    (hc : (planOf s.cfg i).check s.dirset = some e) : exec i s = .next (takeFault e s) := by
  rw [exec_eq_runCommand, runCommand_fault h hc]

/-- A command whose checks pass runs its plan. -/
theorem exec_run {i : Instr} {s : State} (h : s.halted = false)
    (hc : (planOf s.cfg i).check s.dirset = none) :
    exec i s = .next (runPlan (planOf s.cfg i) (s.inProgress i 0 .idle)).settle := by
  rw [exec_eq_runCommand, runCommand_run h hc]

/-- The first `n` exchanges succeed, or there is a first one that fails. -/
theorem exchangesSucceed_or_first_failed (s : State) (n : Nat) :
    s.exchangesSucceed n
      ∨ ∃ j, j < n ∧ s.exchangesSucceed j ∧ exchangeSucceeds (s.exchangeAt j) = false := by
  induction n with
  | zero => exact .inl fun k hk => by omega
  | succ n ih =>
    rcases ih with h | ⟨j, hj, h⟩
    · cases hx : exchangeSucceeds (s.exchangeAt n) with
      | true =>
        left; intro k hk
        rcases Nat.lt_succ_iff_lt_or_eq.mp hk with h' | rfl
        exacts [h k h', hx]
      | false => exact .inr ⟨n, by omega, h, hx⟩
    · exact .inr ⟨j, by omega, h⟩

/-- A raised fault is taken wherever the command stood. -/
theorem settle_raised (e : FaultCode) (s : State) (c : Instr) (k : Nat) (h : Hidden) :
    (Flow.raised e (s.inProgress c k h)).settle = takeFault e s := by simp [Flow.settle]

/-- One commit and a plain response; `t` is the state after the register updates. -/
theorem run_oneCommit (c : Instr) {s t : State} (chk : Bool → Option FaultCode) (us : List RegUpdate)
    (hu : us.foldl applyUpdate (s.inProgress c 0 .idle) = t.inProgress c 0 .idle)
    (he : t.env = s.env) (hd : t.draws = s.draws) :
    (runPlan (straightPlan chk [⟨us, .commit⟩, respondPlain]) (s.inProgress c 0 .idle)).settle =
      if exchangeSucceeds (s.exchangeAt 0) then (t.committed t.out).answered (plainResponse 0#4 t.err)
      else takeFault .deviceUnavailable t.exchangeLost := by
  rw [runPlan_straight, runSteps_cons, ← exchangeAt_congr he hd 0]
  split
  · next h =>
    rw [perform_commit_done rfl hu h]
    simp only [andThen_going, runSteps_cons, respondPlain]
    rw [perform_respond _ rfl]; rfl
  · next h =>
    rw [perform_commit_failed rfl hu (by simpa using h)]
    simp only [andThen_raised, Flow.settle, takeFault_inProgress]

/-- One sample and a report of it. -/
theorem run_oneSample (c : Instr) (s : State) (chk : Bool → Option FaultCode) (r : Report) :
    (runPlan (straightPlan chk [⟨[], .sample⟩, ⟨[], .respond r⟩]) (s.inProgress c 0 .idle)).settle =
      match s.exchangeAt 0 with
      | .done p =>
        s.sampledOnce.answered (okResponse r (s.inProgress c 1 { Hidden.idle with sample := some p }))
      | .failed => takeFault .deviceUnavailable s.exchangeLost := by
  rw [runPlan_straight, runSteps_cons]
  cases hx : s.exchangeAt 0 with
  | done p =>
    rw [perform_sample_done (t := s) rfl rfl hx]
    simp only [andThen_going, runSteps_cons]
    rw [perform_respond _ rfl]; cases r <;> rfl
  | failed =>
    rw [perform_sample_failed (t := s) rfl rfl (by rw [hx]; rfl)]
    simp only [andThen_raised, Flow.settle, takeFault_inProgress]

/-! ### Channel writes -/

/-- The latch part of a channel call sets that channel and no other. -/
theorem mergeLatch_channel (i : Nat) (h : i ≤ 5) (o : Latch) (b : Bool) :
    mergeLatch o (channelMask i) (if b then channelMask i else 0#8) = setChannel o i b := by
  have : ∀ (n : Fin 6) (o : Latch) (b : Bool),
      mergeLatch o (channelMask n.val) (if b then channelMask n.val else 0#8) = setChannel o n.val b := by decide
  exact this ⟨i, by omega⟩ o b

/-- The latch part of a toggle. -/
theorem applyUpdate_toggle (s : State) (i : Nat) (h : i ≤ 5) :
    applyUpdate s (.toggle i) = { s with out := setChannel s.out i (!s.out.getLsbD i) } := by
  have : ∀ (n : Fin 6) (o : Latch), (if o.getLsbD n.val then mergeLatch o (channelMask n.val) 0#8
      else mergeLatch o (channelMask n.val) (channelMask n.val)) = setChannel o n.val (!o.getLsbD n.val) := by
    decide
  simp only [applyUpdate]
  rw [← this ⟨i, by omega⟩ s.out]

/-- A channel call whose commit succeeds. -/
theorem perform_channelWrite_done {c : Instr} {k : Nat} {h : Hidden} {s : State} {i : Nat} {b : Bool} (hi : i ≤ 5)
    (hw : h.waitLeft = none) (hx : exchangeSucceeds (s.exchangeAt 0) = true) :
    perform (channelWrite i b) (s.inProgress c k h)
      = .going ((s.committed (setChannel s.out i b)).inProgress c (k + 1) h) := by
  unfold channelWrite portWrite
  rw [perform_commit_done (t := { s with out := setChannel s.out i b }) hw _ hx]
  · rfl
  · rw [← mergeLatch_channel i hi]; rfl

/-- A channel call whose commit fails. -/
theorem perform_channelWrite_failed {c : Instr} {k : Nat} {h : Hidden} {s : State} {i : Nat} {b : Bool}
    (hi : i ≤ 5) (hw : h.waitLeft = none) (hx : exchangeSucceeds (s.exchangeAt 0) = false) :
    perform (channelWrite i b) (s.inProgress c k h)
      = .raised .deviceUnavailable ((s.commitFailed (setChannel s.out i b)).inProgress c k h) := by
  unfold channelWrite portWrite
  rw [perform_commit_failed (t := { s with out := setChannel s.out i b }) hw _ hx]
  · rfl
  · rw [← mergeLatch_channel i hi]; rfl

/-- The latch after each of some channel writes. -/
def channelValues (out : Latch) : List (Nat × Bool) → List Latch
  | [] => []
  | (i, b) :: ws => setChannel out i b :: channelValues (setChannel out i b) ws

@[simp] theorem channelValues_length (out : Latch) (ws : List (Nat × Bool)) :
    (channelValues out ws).length = ws.length := by
  induction ws generalizing out with
  | nil => rfl
  | cons w ws ih => simp [channelValues, ih]

/-- Channel writes as micro-steps. -/
def channelSteps (ws : List (Nat × Bool)) : List MicroStep := ws.map fun w => channelWrite w.1 w.2

/-- Channel writes whose commits all succeed. -/
theorem runSteps_channelSteps_done (ws : List (Nat × Bool)) (hws : ∀ w ∈ ws, w.1 ≤ 5) (rest : List MicroStep)
    (c : Instr) (k : Nat) (h : Hidden) (hw : h.waitLeft = none) (s : State) (hx : s.exchangesSucceed ws.length) :
    runSteps (channelSteps ws ++ rest) (s.inProgress c k h)
      = runSteps rest ((s.committedAll (channelValues s.out ws)).inProgress c (k + ws.length) h) := by
  induction ws generalizing s k with
  | nil => rfl
  | cons w ws ih =>
    obtain ⟨i, b⟩ := w
    simp only [channelSteps, List.map_cons, List.cons_append, runSteps_cons]
    rw [perform_channelWrite_done (hws (i, b) (by simp)) hw (hx 0 (by simp))]
    have := ih (fun w hw => hws w (by simp [hw])) (k + 1) (s.committed (setChannel s.out i b))
      (exchangesSucceed_committed (by simpa using hx) _)
    rw [channelSteps] at this
    simp only [andThen_going, this, channelValues, State.committedAll, List.foldl_cons, List.length_cons]
    rw [show k + 1 + ws.length = k + (ws.length + 1) from by omega]
    rfl

/-- Channel writes of which commit `j` is the first to fail. -/
theorem runSteps_channelSteps_failed (ws : List (Nat × Bool)) (hws : ∀ w ∈ ws, w.1 ≤ 5) (rest : List MicroStep)
    (c : Instr) (k : Nat) (h : Hidden) (hw : h.waitLeft = none) (s : State) (j : Nat) (hj : j < ws.length)
    (hx : s.exchangesSucceed j) (hf : exchangeSucceeds (s.exchangeAt j) = false) :
    runSteps (channelSteps ws ++ rest) (s.inProgress c k h)
      = .raised .deviceUnavailable
          (((s.committedAll ((channelValues s.out ws).take j)).commitFailed
            (((channelValues s.out ws)[j]?).getD 0#6)).inProgress c (k + j) h) := by
  induction ws generalizing s k j with
  | nil => simp at hj
  | cons w ws ih =>
    obtain ⟨i, b⟩ := w
    simp only [channelSteps, List.map_cons, List.cons_append, runSteps_cons]
    cases j with
    | zero =>
      rw [perform_channelWrite_failed (hws (i, b) (by simp)) hw hf]
      rfl
    | succ j =>
      rw [perform_channelWrite_done (hws (i, b) (by simp)) hw (hx 0 (by simp))]
      have := ih (fun w hw => hws w (by simp [hw])) (k + 1) (s.committed (setChannel s.out i b)) j
        (by simpa using hj) (exchangesSucceed_committed (by simpa using hx) _)
        (by rw [exchangeAt_committed, Nat.add_comm]; exact hf)
      rw [channelSteps] at this
      simp only [andThen_going, this, channelValues, State.committedAll, List.take_succ_cons, List.foldl_cons,
        List.getElem?_cons_succ]
      rw [show k + 1 + j = k + (j + 1) from by omega]
      rfl

/-! ### Bridges -/

/-- The two channel writes of an ApplyBridge. -/
def bridgeWrites (p : Pair) (c : BridgeCommand) : List (Nat × Bool) :=
  [(pairLo p, (bridgeTarget c).1), (pairHi p, (bridgeTarget c).2)]

theorem applyBridge_eq (p : Pair) (c : BridgeCommand) : applyBridge p c = channelSteps (bridgeWrites p c) := rfl

theorem bridgeWrites_channels (p : Pair) (c : BridgeCommand) : ∀ w ∈ bridgeWrites p c, w.1 ≤ 5 := by
  cases p <;> simp [bridgeWrites, pairLo, pairHi]

/-- The channels of a pair after each of the two channel calls; no other channel changes. -/
theorem setChannel_pair (o : Latch) (p : Pair) (b1 b2 : Bool) :
    (setChannel (setChannel o (pairLo p) b1) (pairHi p) b2).getLsbD (pairLo p) = b1
      ∧ (setChannel (setChannel o (pairLo p) b1) (pairHi p) b2).getLsbD (pairHi p) = b2
      ∧ (setChannel o (pairLo p) b1).getLsbD (pairLo p) = b1
      ∧ (setChannel o (pairLo p) b1).getLsbD (pairHi p) = o.getLsbD (pairHi p)
      ∧ ∀ j, j < 6 → j ≠ pairLo p → j ≠ pairHi p →
          (setChannel o (pairLo p) b1).getLsbD j = o.getLsbD j
            ∧ (setChannel (setChannel o (pairLo p) b1) (pairHi p) b2).getLsbD j = o.getLsbD j := by
  cases p <;> revert o b1 b2 <;> decide

/-! ### Maneuvers -/

/-- The four channel writes that start a maneuver. -/
def maneuverStart (m : Maneuver) : List (Nat × Bool) :=
  bridgeWrites .a (maneuverTable m).1 ++ bridgeWrites .b (maneuverTable m).2

/-- The four channel writes that end one. -/
def maneuverStop : List (Nat × Bool) := bridgeWrites .a .coast ++ bridgeWrites .b .coast

theorem maneuverSteps_eq (m : Maneuver) (rest : List MicroStep) :
    maneuverSteps m ++ rest
      = channelSteps (maneuverStart m) ++ (⟨[], .wait .cmd⟩ :: (channelSteps maneuverStop ++ rest)) := rfl

theorem maneuverStart_channels (m : Maneuver) : ∀ w ∈ maneuverStart m, w.1 ≤ 5 := by
  cases m <;> decide

theorem maneuverStop_channels : ∀ w ∈ maneuverStop, w.1 ≤ 5 := by decide

@[simp] theorem maneuverStart_length (m : Maneuver) : (maneuverStart m).length = 4 := rfl

@[simp] theorem maneuverStop_length : maneuverStop.length = 4 := rfl

@[simp] theorem exchangeAt_committedAll (vs : List Latch) (s : State) (n : Nat) :
    (s.committedAll vs).exchangeAt n = s.exchangeAt (vs.length + n) := by
  induction vs generalizing s with
  | nil => simp [State.committedAll]
  | cons v vs ih =>
    rw [show s.committedAll (v :: vs) = (s.committed v).committedAll vs from rfl, ih, exchangeAt_committed]
    congr 1; simp; omega

/-- A maneuver whose eight commits succeed. -/
theorem runSteps_maneuver_done (m : Maneuver) (rest : List MicroStep) (c : Instr) (k : Nat) (h : Hidden)
    (hw : h.waitLeft = none) (s : State) (hx : s.exchangesSucceed 8) :
    runSteps (maneuverSteps m ++ rest) (s.inProgress c k h)
      = runSteps rest ((s.maneuvered m).inProgress c (k + 9) h) := by
  rw [maneuverSteps_eq, runSteps_channelSteps_done _ (maneuverStart_channels m) _ _ _ _ hw _
    (exchangesSucceed_mono hx (by simp)), runSteps_cons, perform_wait .cmd hw hw rfl, andThen_going,
    runSteps_channelSteps_done _ maneuverStop_channels _ _ _ _ hw]
  · rfl
  · intro j hj
    simpa using hx (4 + j) (by simp at hj; omega)

/-- A maneuver of which commit `j` is the first to fail. -/
theorem runSteps_maneuver_failed (m : Maneuver) (rest : List MicroStep) (c : Instr) (k : Nat) (h : Hidden)
    (hw : h.waitLeft = none) (s : State) (j : Nat) (hj : j < 8) (hx : s.exchangesSucceed j)
    (hf : exchangeSucceeds (s.exchangeAt j) = false) :
    ∃ k', runSteps (maneuverSteps m ++ rest) (s.inProgress c k h)
      = .raised .deviceUnavailable ((s.maneuverFailed m j).inProgress c k' h) := by
  rw [maneuverSteps_eq]
  by_cases hj4 : j < 4
  · refine ⟨k + j, ?_⟩
    rw [runSteps_channelSteps_failed _ (maneuverStart_channels m) _ _ _ _ hw _ j hj4 hx hf]
    rcases (by omega : j = 0 ∨ j = 1 ∨ j = 2 ∨ j = 3) with rfl | rfl | rfl | rfl <;> rfl
  · obtain ⟨i, rfl⟩ : ∃ i, j = 4 + i := ⟨j - 4, by omega⟩
    refine ⟨k + 4 + 1 + i, ?_⟩
    rw [runSteps_channelSteps_done _ (maneuverStart_channels m) _ _ _ _ hw _ (exchangesSucceed_mono hx (Nat.le_add_right 4 i)),
      runSteps_cons, perform_wait .cmd hw hw rfl, andThen_going,
      runSteps_channelSteps_failed _ maneuverStop_channels _ _ _ _ hw _ i (by simp; omega)]
    · rcases (by omega : i = 0 ∨ i = 1 ∨ i = 2 ∨ i = 3) with rfl | rfl | rfl | rfl <;> rfl
    · intro n hn
      have := hx (4 + n) (by omega)
      simpa using this
    · simpa using hf

/-- The repetition index is written before a maneuver's first commit. -/
theorem runSteps_withBurst (n : Nat) (m : Maneuver) (rest : List MicroStep) (c : Instr) (k : Nat) (h : Hidden)
    (hw : h.waitLeft = none) (s : State) :
    runSteps (withUpdate (.burst n) (maneuverSteps m) ++ rest) (s.inProgress c k h)
      = runSteps (maneuverSteps m ++ rest) (s.inProgress c k { h with burst := n }) := by
  obtain ⟨w, sm, b, q⟩ := h
  subst hw
  rfl

@[simp] theorem exchangeAt_maneuvered (m : Maneuver) (s : State) (n : Nat) :
    (s.maneuvered m).exchangeAt n = s.exchangeAt (8 + n) := exchangeAt_shift 8 (by
      simp only [State.maneuvered, State.maneuverPart, State.committedAll, State.waited, State.committed,
        maneuverValues, bridgeRun, bridgeValues, List.cons_append, List.nil_append, List.take, List.drop,
        List.foldl, List.drop_drop, if_neg (show ¬ 8 ≤ 4 by omega)]) rfl n

/-! ### Lists of maneuvers -/

/-- A maneuver, with a repetition index to write first or without one, as micro-steps. -/
def segmentSteps : Option Nat × Maneuver → List MicroStep
  | (some n, m) => withUpdate (.burst n) (maneuverSteps m)
  | (none, m) => maneuverSteps m

/-- The maneuvers of a navigation cycle with their repetition indices. -/
def cycleSegments (sample : Sensors) : List (Option Nat × Maneuver) :=
  if sample.getLsbD 0 then [(none, .fwd), (none, .pivl)]
  else [(some 1, .pivr), (some 2, .pivr), (some 3, .pivr), (some 4, .pivr), (some 5, .pivr), (some 6, .pivr)]

theorem navActions_eq (sample : Sensors) : navActions sample = (cycleSegments sample).flatMap segmentSteps := by
  unfold navActions cycleSegments
  split <;> rfl

theorem cycleSegments_maneuvers (sample : Sensors) :
    (cycleSegments sample).map Prod.snd = cycleManeuvers sample := by
  unfold cycleSegments cycleManeuvers
  split <;> rfl

/-- A segment runs as its maneuver, at some repetition index. -/
theorem runSteps_segment (g : Option Nat × Maneuver) (rest : List MicroStep) (c : Instr) (k : Nat) (h : Hidden)
    (hw : h.waitLeft = none) (s : State) :
    ∃ b, runSteps (segmentSteps g ++ rest) (s.inProgress c k h)
      = runSteps (maneuverSteps g.2 ++ rest) (s.inProgress c k { h with burst := b }) := by
  obtain ⟨_ | n, m⟩ := g
  · exact ⟨h.burst, rfl⟩
  · exact ⟨n, runSteps_withBurst n m rest c k h hw s⟩

/-- Maneuvers whose commits all succeed. -/
theorem runSteps_segments_done (gs : List (Option Nat × Maneuver)) (rest : List MicroStep) (c : Instr) (k : Nat)
    (h : Hidden) (hw : h.waitLeft = none) (s : State) (hx : s.exchangesSucceed (8 * gs.length)) :
    ∃ b, runSteps (gs.flatMap segmentSteps ++ rest) (s.inProgress c k h)
      = runSteps rest ((s.maneuveredAll (gs.map Prod.snd)).inProgress c (k + 9 * gs.length) { h with burst := b }) := by
  induction gs generalizing s k h with
  | nil => exact ⟨h.burst, rfl⟩
  | cons g gs ih =>
    rw [List.length_cons] at hx
    rw [List.flatMap_cons, List.append_assoc]
    obtain ⟨b, hb⟩ := runSteps_segment g (gs.flatMap segmentSteps ++ rest) c k h hw s
    rw [hb, runSteps_maneuver_done _ _ _ _ { h with burst := b } hw _ (exchangesSucceed_mono hx (by omega))]
    obtain ⟨b', hb'⟩ := ih (k + 9) { h with burst := b } hw (s.maneuvered g.2)
      (fun j hj => by rw [exchangeAt_maneuvered]; exact hx _ (by omega))
    refine ⟨b', hb'.trans ?_⟩
    rw [List.length_cons, show k + 9 + 9 * gs.length = k + 9 * (gs.length + 1) from by omega]
    rfl

/-- Maneuvers of which one fails at its commit `j`. -/
theorem runSteps_segments_failed (gs : List (Option Nat × Maneuver)) (g : Option Nat × Maneuver)
    (gs' : List (Option Nat × Maneuver)) (rest : List MicroStep) (c : Instr) (k : Nat)
    (h : Hidden) (hw : h.waitLeft = none) (s : State) (j : Nat) (hj : j < 8)
    (hx : s.exchangesSucceed (8 * gs.length + j))
    (hf : exchangeSucceeds (s.exchangeAt (8 * gs.length + j)) = false) :
    ∃ k' h', runSteps ((gs ++ g :: gs').flatMap segmentSteps ++ rest) (s.inProgress c k h)
      = .raised .deviceUnavailable (((s.maneuveredAll (gs.map Prod.snd)).maneuverFailed g.2 j).inProgress c k' h') := by
  rw [List.flatMap_append, List.append_assoc]
  obtain ⟨b, hb⟩ := runSteps_segments_done gs ((g :: gs').flatMap segmentSteps ++ rest) c k h hw s
    (exchangesSucceed_mono hx (by omega))
  have hat : ∀ n, (s.maneuveredAll (gs.map Prod.snd)).exchangeAt n = s.exchangeAt (8 * gs.length + n) := by
    clear hb hx hf
    induction gs generalizing s with
    | nil => simp [State.maneuveredAll]
    | cons g gs ih =>
      intro n
      rw [List.map_cons, show s.maneuveredAll (g.2 :: gs.map Prod.snd)
        = (s.maneuvered g.2).maneuveredAll (gs.map Prod.snd) from rfl, ih, exchangeAt_maneuvered]
      congr 1; simp; omega
  rw [hb, List.flatMap_cons, List.append_assoc]
  obtain ⟨b', hb'⟩ := runSteps_segment g (gs'.flatMap segmentSteps ++ rest) c (k + 9 * gs.length)
    { h with burst := b } hw (s.maneuveredAll (gs.map Prod.snd))
  rw [hb']
  obtain ⟨k', hk'⟩ := runSteps_maneuver_failed g.2 (gs'.flatMap segmentSteps ++ rest) c (k + 9 * gs.length)
    { h with burst := b' } hw (s.maneuveredAll (gs.map Prod.snd)) j hj
    (fun n hn => by rw [hat]; exact hx _ (by omega)) (by rw [hat]; exact hf)
  exact ⟨k', _, hk'⟩

end Sys2Proof.Machine
end

