-- ==== Sys2Proof/Tests/Slice0.lean ====
section
/-! SUPPORT. Tests with expected results from spec/95_test_vectors.md (its vector's name in each comment), and for every statement of Certificates/Slice0/Obligations.lean with hypotheses a witness that meets them. -/

namespace Sys2Proof.Tests

open Sys2Proof Sys2Proof.Machine

/-! ### Small states -/

/-- A legal KEYMAP_BC: D, F, C, V on pair B and G, H, B, N on pair C. -/
def letters : Keymap := ⟨0x44#8, 0x46#8, 0x43#8, 0x56#8, 0x47#8, 0x48#8, 0x42#8, 0x4E#8⟩

/-- The default configuration of 95_test_vectors with that keymap. -/
def settings : Config := { keymap := letters }

/-- The reset state with those settings and the environment's answers. -/
def fresh (env : List Exchange) : State := { State.reset with cfg := settings, env := env }

/-- A configured state with a latch value and the environment's answers. -/
def on (out : Latch) (env : List Exchange) : State :=
  { fresh env with dir := 0x3F#8, dirset := true, out := out, pinsOut := .driven out }

/-- A halted state after a fault. -/
def down (err : Nibble) (env : List Exchange) : State :=
  { on 0#6 env with halted := true, err := err, seq := .halt }

/-- An exchange that succeeds with both input pins high. -/
def ok : Exchange := .done 0b11#2

/-- The state after the host's next moves, one step for each. -/
def play (moves : List Move) (s : State) : Option State :=
  match Host.Core.run core moves.length { s with moves := moves } with
  | .next t => some t
  | .fault _ => none
  | .refused _ => none

/-- The state after one command word. -/
def after (s : State) (w : Word) : Option State := play [.word w] s

/-- The values of the pin trace. -/
def pins (s : State) : List PinState := s.trace.map TraceEntry.pins

/-- The ticks of the pin trace. -/
def times (s : State) : List Nat := s.trace.map TraceEntry.tick

/-! ### Well-formedness and decoding -/

/-- 30_encoding R77: `A[7:2]` of MANV is 0, the encoding's only operand restriction. -/
theorem test_wf_manv : (Instr.manv 3#8).wf = true ∧ (Instr.manv 4#8).wf = false ∧ (Instr.manv 0x80#8).wf = false := by
  decide

/-- Words written out bit by bit from 30_encoding R70 to R78: OP, A, B, C. -/
theorem test_decode_port :
    decode 0b00000001_00111111_00000000_00000000#32 = .ok (.setdir 0x3F#8)
      ∧ decode 0b00000010_00001111_00000101_00000000#32 = .ok (.write 0x0F#8 0x05#8)
      ∧ decode 0b00000011_00000000_00000000_00000000#32 = .ok .read
      ∧ decode 0b00000100_00000011_00000000_00000000#32 = .ok (.set 3#8)
      ∧ decode 0b00000101_00000111_00000000_00000000#32 = .ok (.clr 7#8)
      ∧ decode 0b00000110_00000101_00000000_00000000#32 = .ok (.tgl 5#8)
      ∧ decode 0b00001001_00000000_00000000_00000000#32 = .ok .sense
      ∧ decode 0b00001100_00000000_00000000_00000000#32 = .ok .zeroall := by decide

theorem test_decode_motion :
    decode 0b00000111_00000010_00000011_00000000#32 = .ok (.bridge 2#8 3#8)
      ∧ decode 0b00001000_00000011_00000000_00000000#32 = .ok (.manv 3#8)
      ∧ decode 0b00001010_00000000_00000000_00000000#32 = .ok .navtick
      ∧ decode 0b00001011_00000000_00000000_00000000#32 = .ok .contick
      ∧ decode 0b00001011_00110001_00000001_00000000#32 = .ok (.contickKey 0x31#8)
      ∧ decode 0b00001011_00000000_00000001_00000000#32 = .ok (.contickKey 0x00#8) := by decide

/-- The illegal words of 95_test_vectors 2.1. -/
theorem test_decode_illegal :
    [0x00000000#32, 0x0D000000#32, 0xFFFFFFFF#32].map decode = List.replicate 3 (.error .reservedOpcode)
      ∧ [0x013F0100#32, 0x020F0501#32, 0x03010000#32, 0x08040000#32, 0x08000100#32, 0x0A000001#32,
          0x0B310000#32, 0x0B310200#32, 0x0C3F0000#32].map decode
        = List.replicate 9 (.error .reservedOperand) := by decide

/-- 30_encoding R71: `0x07010100` travels as 07 01 01 00. -/
theorem test_decode_bytes :
    decodeBytes [0x07#8, 0x01#8, 0x01#8, 0x00#8, 0xAA#8] = .ok (.bridge 1#8 1#8, [0xAA#8])
      ∧ decodeBytes [0x07#8, 0x01#8, 0x01#8] = .error .partialWord
      ∧ wordBytes 0x07010100#32 = [0x07#8, 0x01#8, 0x01#8, 0x00#8] := by decide

theorem test_decodeTableWord :
    decodeTableWord 32 0x08030000 = some (.manv 3#8) ∧ decodeTableWord 32 0x08040000 = none := by decide

/-- 30_encoding R83, R84. -/
theorem test_assembler :
    (AsmLine.bridge (.name .b) (.name .right)).word = 0x07010100#32 ∧ AsmLine.pivotRight.word = 0x08030000#32
      ∧ (AsmLine.key 0x71#8).word = 0x0B710100#32 := by decide

/-! ### Port commands -/

/-- V-P1. -/
theorem test_setdir : (after (fresh [ok]) 0x013F0000#32).map (fun t => (t.dirset, t.pinsOut, t.dir))
    = some (true, .driven 0#6, 0x3F#8) := by decide

/-- V-P3. -/
theorem test_setdir_mask : (after (fresh [ok]) 0x01000000#32).map (fun t => (t.err, t.pinsOut, t.halted))
    = some (7#4, .undriven, true) := by decide

/-- V-P5. -/
theorem test_write : (after (on 0b101010#6 [ok]) 0x020F0500#32).map (fun t => (t.out, pins t))
    = some (0b100101#6, [.driven 0b100101#6]) := by decide

/-- V-P9. -/
theorem test_write_input_channel : (after (on 0b110011#6 [ok]) 0x02410100#32).map (fun t => (t.err, pins t))
    = some (1#4, [.driven 0#6]) := by decide

/-- V-P12. -/
theorem test_read : (after (on 0b000110#6 [.done 0b10#2]) 0x03000000#32).map (fun t => (t.responses.map Response.data, pins t))
    = some ([0x86#8], []) := by decide

/-- V-P14. -/
theorem test_set : (after (on 0#6 [ok]) 0x04030000#32).map State.out = some 0b001000#6 := by decide

/-- V-F3: the commit of SET fails. -/
theorem test_set_device : (after (on 0b000101#6 [.failed, ok]) 0x04010000#32).map (fun t => (t.err, pins t))
    = some (3#4, [.unknown, .driven 0#6]) := by decide

/-- V-P17. -/
theorem test_clr : (after (on 0b111111#6 [ok]) 0x05000000#32).map State.out = some 0b111110#6 := by decide

/-- V-P23. -/
theorem test_tgl : (after (on 0#6 [ok]) 0x06050000#32).map State.out = some 0b100000#6 := by decide

/-- V-P22 at channel 4: twice is once back. -/
theorem test_tgl_twice : (play [.word 0x06040000#32, .word 0x06040000#32] (on 0b010101#6 [ok, ok])).map pins
    = some [.driven 0b000101#6, .driven 0b010101#6] := by decide

/-- V-P27. -/
theorem test_sense : (after (on 0b001100#6 [.done 0b10#2]) 0x09000000#32).map (fun t => (t.responses.map Response.sense, pins t))
    = some ([0b10#2], []) := by decide

/-- V-P25. -/
theorem test_zeroall : (after (on 0b110110#6 [ok]) 0x0C000000#32).map pins = some [.driven 0#6] := by decide

/-! ### Bridges and maneuvers -/

/-- V-B25: COAST on pair C clears pair C. -/
theorem test_bridge_coast_c : (after (on 0b110011#6 [ok, ok]) 0x07020300#32).map pins
    = some [.driven 0b100011#6, .driven 0b000011#6] := by decide

/-- V-B26: LEFT from RIGHT passes through BRAKE. -/
theorem test_bridge_transient : (after (on 0b000010#6 [ok, ok]) 0x07000000#32).map pins
    = some [.driven 0b000011#6, .driven 0b000001#6] := by decide

/-- V-M4. -/
theorem test_manv_pivr : (after (on 0#6 (List.replicate 8 ok)) 0x08030000#32).map (fun t => (pins t, times t))
    = some ([0b000000#6, 0b000010#6, 0b000110#6, 0b000110#6, 0b000110#6, 0b000100#6, 0b000000#6, 0b000000#6].map
        PinState.driven, [0, 0, 0, 0, 5, 5, 5, 5]) := by decide

/-- V-M8: commit 3 and the cleanup fail. -/
theorem test_manv_abort : (after (on 0#6 [ok, ok, .failed, .failed]) 0x08000000#32).map (fun t => (pins t, t.out, t.ticks))
    = some ([.driven 1#6, .driven 1#6, .unknown, .unknown], 0#6, 0) := by decide

/-! ### Cycles -/

/-- V-N2. -/
theorem test_navtick_high : (after (on 0#6 (.done 0b01#2 :: List.replicate 16 ok)) 0x0A000000#32).map
      (fun t => (t.trace.length, t.ticks, t.responses.map Response.sense))
    = some (16, 110, [0b01#2]) := by decide

/-- V-N5: the sample fails. -/
theorem test_navtick_abort : (after (on 0#6 [.failed, ok]) 0x0A000000#32).map (fun t => (pins t, t.err))
    = some ([.unknown, .driven 0#6], 3#4) := by decide

/-- V-K8. -/
theorem test_contick : (after { on 0#6 [.done 0b01#2] with cnt6 := 4 } 0x0B000000#32).map
      (fun t => (t.cnt6, t.cnt7, t.ticks)) = some (4, 1, 100) := by decide

/-- V-K17. -/
theorem test_contick_abort : (after { on 0#6 [.failed, ok] with cnt6 := 7, cnt7 := 7 } 0x0B000000#32).map
      (fun t => (t.cnt6, t.cnt7, pins t)) = some (7, 7, [.unknown, .driven 0#6]) := by decide

/-- V-K11: '0', then the same cycle's sample. -/
theorem test_contick_reset : (after { on 0#6 [.done 0b10#2] with cnt6 := 9, cnt7 := 3 } 0x0B300100#32).map
      (fun t => (t.cnt6, t.cnt7)) = some (1, 0) := by decide

/-- V-K12: Quit clears the outputs instead of sleeping. -/
theorem test_contick_quit : (after (on 0b001101#6 [ok, ok]) 0x0B710100#32).map
      (fun t => (pins t, t.ticks, t.responses.map Response.quit)) = some ([.driven 0#6], 0, [true]) := by decide

/-! ### Faults, halt, reset, micro-steps -/

/-- V-F8. -/
theorem test_refused : (after (down 1#4 [ok]) 0x03000000#32).map (fun t => (t.responses, t.env.length))
    = some ([plainResponse 0xF#4 1#4], 1) := by decide

/-- V-F10, V-F11: decode before configuration, configuration before operands. -/
theorem test_priority : (after (fresh []) 0x0D000000#32).map State.err = some 4#4
    ∧ (after (fresh []) 0x04060000#32).map State.err = some 5#4 := by decide

/-- V-R1: a reset in a maneuver's hold. -/
theorem test_reset_in_hold :
    (play [.offer 0x08000000#32, .go, .go, .go, .go, .tick, .reset] (on 0#6 (List.replicate 8 ok))).map
      (fun t => (pins t, t.out, t.seq, t.responses))
    = some ([.driven 1#6, .driven 1#6, .driven 5#6, .driven 5#6, .undriven], 0#6, .ready, []) := by decide

/-- V-R5: a reset between the two commits of a BRIDGE. -/
theorem test_reset_in_bridge :
    (play [.offer 0x07000000#32, .go, .reset] (on 0b000010#6 [ok, ok])).map (fun t => (pins t, t.out))
    = some ([.driven 0b000011#6, .undriven], 0#6) := by decide

/-- V-R3 over a byte transport for its first word. -/
theorem test_boot_bytes :
    (play [.reset, .byte 0x01#8, .byte 0x3F#8, .byte 0x00#8, .byte 0x00#8, .word 0x03000000#32] (fresh [ok, ok])).map
      (fun t => t.responses.map Response.data) = some [0#8, 0xC0#8] := by decide

/-- 10_state R34: the signal view, configured and at reset. -/
theorem test_signals : (on 5#6 []).cmdReady = true ∧ (on 5#6 []).pinOe = true ∧ (on 5#6 []).pinOut = some 5#6
    ∧ State.reset.pinOe = false ∧ State.reset.pinOut = none := by decide

/-- 70 R244 to R246: a stream that keeps the boot duty, and two that do not. -/
theorem test_boot_duty :
    bootDuty false [.word 0x013F0000#32, .word 0x0C000000#32, .reset, .offer 0x013F0000#32] = true
      ∧ bootDuty false [.word 0x03000000#32] = false
      ∧ bootDuty false [.word 0x013F0000#32, .word 0x013F0000#32] = false := by decide

/-- 00_scope R8: CON_DELAY is LOOP_DELAY where it is not given; 1/32768 s is a legal T_TICK and 0 s is none. -/
theorem test_configuration :
    ({ keymap := letters, loopDelay := 7 } : Config).conDelay = 7 ∧ Config.defaults.conDelay = 100
      ∧ ({ settings with tTick := { num := 1, den := 32768 } } : Config).legal = true
      ∧ ({ settings with tTick := 0 } : Config).legal = false := by decide

/-- 60_exceptions R228: MANV's hold of 5 ticks of 1 ms lasts 1/200 s. -/
theorem test_elapsed : ({ on 0#6 [] with ticks := 5 } : State).elapsed = 1 / 200 := by
  simp only [State.elapsed, State.elapsedAt, on, fresh, settings]
  rw [Rat.mk_eq_divInt]
  norm_num [Rat.divInt_eq_div]

/-! ### Witnesses: for each statement with hypotheses, a state and operands that meet them, at boundary values -/

theorem on_running (out : Latch) (env : List Exchange) : (on out env).running := ⟨rfl, rfl⟩

theorem fresh_isReset (env : List Exchange) : (fresh env).isReset := ⟨rfl, rfl, rfl, rfl, rfl, rfl, rfl, rfl, rfl⟩

theorem on_succeeds (out : Latch) (n : Nat) : (on out (List.replicate n ok)).exchangesSucceed n := by
  intro k hk
  simp [State.exchangeAt, on, fresh, hk, ok, exchangeSucceeds]

/-- A configured state whose answers run out after `n` successes with a failure. -/
def breaking (n : Nat) : State := on 0#6 (List.replicate n ok ++ [.failed])

theorem breaking_succeeds (n : Nat) : (breaking n).exchangesSucceed n := by
  intro k hk
  simp [State.exchangeAt, breaking, on, fresh, ok, exchangeSucceeds, List.getElem?_append_left, hk]

theorem breaking_fails (n : Nat) : (breaking n).exchangeAt n = .failed := by
  simp [State.exchangeAt, breaking, on, fresh]

theorem on_inv (out : Latch) (env : List Exchange) (ms : List Move) : ({ on out env with moves := ms } : State).Inv where
  dirMask := fun _ => rfl
  pins := rfl
  status := ⟨rfl, rfl⟩
  position := rfl
  counters := ⟨fun _ h => (nomatch h), fun _ h => (nomatch h)⟩
  partialWord := Nat.zero_le 3

theorem witness_DecodeEncodeRoundTrip : (Instr.manv 3#8).WellFormed ∧ (Instr.contickKey 0xFF#8).WellFormed := by decide

theorem witness_EncodeInvertsDecode : decode 0x0B310100#32 = .ok (.contickKey 0x31#8) := by decide

theorem witness_IllegalWordsFault :
    ((on 5#6 []).seq = .ready ∧ (on 5#6 []).halted = false)
      ∧ decode 0x00000000#32 = .error .reservedOpcode ∧ decode 0x0D000000#32 = .error .reservedOpcode
      ∧ decode 0x0B000200#32 = .error .reservedOperand ∧ decode 0x0B010000#32 = .error .reservedOperand := by decide

theorem witness_OutOfRangeOperandsFault :
    (on 5#6 []).running ∧ 6 ≤ (6#8).toNat ∧ (0x40#8).extractLsb' 6 2 ≠ 0#2 ∧ 3 ≤ (3#8).toNat ∧ 4 ≤ (4#8).toNat
      ∧ (fresh []).halted = false ∧ (fresh []).dirset = false ∧ (0x3E#8 : Byte) ≠ 0x3F#8 :=
  ⟨on_running _ _, by decide⟩

theorem witness_PseudoInstructionsAndEquivalences : (0#8).toNat ≤ 7 ∧ (5#8).toNat ≤ 7 ∧ (7#8).toNat ≤ 7 := by decide

/-- '7', 0x3A and 0xC1 are no row's key; 'W' is a letter of no row here. -/
theorem witness_KeyDispatchTable : letters.legal = true
    ∧ 0x37#8 ∉ (keyTable letters).map Prod.fst ∧ 0x57#8 ∉ (keyTable letters).map Prod.fst
    ∧ 0xC1#8 ∉ (keyTable letters).map Prod.fst := by decide

theorem witness_ResetValues : (on 5#6 []).moves = [] := by decide

theorem witness_ResetAtAnyPosition :
    ({ on 5#6 [] with seq := .exec (.manv 0#8) 4, moves := [.reset, .go] } : State).moves = .reset :: [.go] := by decide

theorem witness_BootSequence :
    ((fresh [ok]).isReset ∧ exchangeSucceeds ((fresh [ok]).exchangeAt 0) = true)
      ∧ (∀ a, Instr.read ≠ .setdir a) ∧ (on 5#6 []).running :=
  ⟨⟨fresh_isReset _, by decide⟩, (fun _ h => nomatch h), on_running _ _⟩

theorem witness_SetdirWhole :
    ((on 5#6 []).halted = false ∧ (on 5#6 []).dirset = true)
      ∧ ((fresh []).halted = false ∧ (fresh []).dirset = false ∧ (0x7F#8 : Byte) ≠ 0x3F#8)
      ∧ exchangeSucceeds ((fresh [ok]).exchangeAt 0) = true
      ∧ exchangeSucceeds ((fresh [.failed]).exchangeAt 0) = false := by decide

theorem witness_WriteWhole :
    (on 5#6 []).running ∧ (0x40#8).extractLsb' 6 2 ≠ 0#2 ∧ (0x3F#8).extractLsb' 6 2 = 0#2
      ∧ exchangeSucceeds ((on 5#6 [ok]).exchangeAt 0) = true
      ∧ exchangeSucceeds ((breaking 0).exchangeAt 0) = false :=
  ⟨on_running _ _, by decide⟩

theorem witness_ReadWhole :
    (on 5#6 []).running ∧ (on 5#6 [ok]).exchangeAt 0 = .done 3#2 ∧ (breaking 0).exchangeAt 0 = .failed :=
  ⟨on_running _ _, by decide⟩

theorem witness_SenseWhole :
    (on 5#6 []).running ∧ (on 5#6 [.done 2#2]).exchangeAt 0 = .done 2#2 ∧ (breaking 0).exchangeAt 0 = .failed :=
  ⟨on_running _ _, by decide⟩

theorem witness_SetWhole :
    (on 5#6 []).running ∧ 5 < (6#8).toNat ∧ (5#8).toNat ≤ 5
      ∧ exchangeSucceeds ((on 5#6 [ok]).exchangeAt 0) = true
      ∧ exchangeSucceeds ((breaking 0).exchangeAt 0) = false :=
  ⟨on_running _ _, by decide⟩

theorem witness_ClrWhole :
    (on 0x3F#6 []).running ∧ 5 < (6#8).toNat ∧ (0#8).toNat ≤ 5
      ∧ exchangeSucceeds ((on 0x3F#6 [ok]).exchangeAt 0) = true
      ∧ exchangeSucceeds ((breaking 0).exchangeAt 0) = false :=
  ⟨on_running _ _, by decide⟩

theorem witness_TglWhole :
    (on 1#6 []).running ∧ 5 < (6#8).toNat ∧ (5#8).toNat ≤ 5
      ∧ exchangeSucceeds ((on 1#6 [ok]).exchangeAt 0) = true
      ∧ exchangeSucceeds ((breaking 0).exchangeAt 0) = false :=
  ⟨on_running _ _, by decide⟩

theorem witness_ToggleTwiceRestores :
    (on 5#6 (List.replicate 2 ok)).running ∧ (5#8).toNat ≤ 5 ∧ (on 5#6 (List.replicate 2 ok)).exchangesSucceed 2 :=
  ⟨on_running _ _, by decide, on_succeeds _ 2⟩

theorem witness_ZeroallWhole :
    (on 5#6 []).running ∧ exchangeSucceeds ((on 5#6 [ok]).exchangeAt 0) = true
      ∧ exchangeSucceeds ((breaking 0).exchangeAt 0) = false :=
  ⟨on_running _ _, by decide⟩

theorem witness_BridgeWhole :
    (on 5#6 []).running ∧ 2 < (3#8).toNat ∧ 3 < (4#8).toNat ∧ (on 5#6 (List.replicate 2 ok)).exchangesSucceed 2
      ∧ exchangeSucceeds ((breaking 0).exchangeAt 0) = false
      ∧ exchangeSucceeds ((breaking 1).exchangeAt 0) = true ∧ exchangeSucceeds ((breaking 1).exchangeAt 1) = false :=
  ⟨on_running _ _, by decide, by decide, on_succeeds _ 2, by decide⟩

theorem witness_BridgeGuarantee :
    (on 0x3F#6 [ok, ok]).running ∧ pairOfCode 2#8 = some .c ∧ bridgeCommandOfCode 3#8 = some .coast
      ∧ ∃ t, exec (.bridge 2#8 3#8) (on 0x3F#6 [ok, ok]) = .next t ∧ t.halted = false :=
  ⟨on_running _ _, by decide, by decide, _, rfl, rfl⟩

theorem witness_BridgeTransients :
    (on 0#6 (List.replicate 2 ok)).running ∧ (on 0#6 (List.replicate 2 ok)).exchangesSucceed 2 :=
  ⟨on_running _ _, on_succeeds _ 2⟩

theorem witness_ManvWhole :
    ((on 0#6 (List.replicate 8 ok)).running ∧ (on 0#6 (List.replicate 8 ok)).exchangesSucceed 8)
      ∧ ((breaking 4).running ∧ 4 < 8 ∧ (breaking 4).exchangesSucceed 4
          ∧ exchangeSucceeds ((breaking 4).exchangeAt 4) = false)
      ∧ ((breaking 7).exchangesSucceed 7 ∧ exchangeSucceeds ((breaking 7).exchangeAt 7) = false) :=
  ⟨⟨on_running _ _, on_succeeds _ 8⟩, ⟨on_running _ _, by decide, breaking_succeeds 4, by rw [breaking_fails]; rfl⟩,
    breaking_succeeds 7, by rw [breaking_fails]; rfl⟩

theorem witness_ManeuverEndsInCoast :
    (on 0x3F#6 (List.replicate 8 ok)).running
      ∧ ∃ t, exec (.manv 3#8) (on 0x3F#6 (List.replicate 8 ok)) = .next t ∧ t.halted = false :=
  ⟨on_running _ _, _, rfl, rfl⟩

theorem witness_ManeuverTraceTable :
    (on 0x30#6 (List.replicate 8 ok)).running ∧ (on 0x30#6 (List.replicate 8 ok)).exchangesSucceed 8
      ∧ (on 0x30#6 (List.replicate 8 ok)).out = (3#2 : BitVec 2) ++ 0#4 :=
  ⟨on_running _ _, on_succeeds _ 8, by decide⟩

theorem witness_NavtickWhole :
    ((breaking 0).running ∧ (breaking 0).exchangeAt 0 = .failed)
      ∧ ((on 0#6 (List.replicate 17 ok)).exchangeAt 0 = .done 3#2
          ∧ (on 0#6 (List.replicate 17 ok)).exchangesSucceed (1 + 8 * (cycleManeuvers 3#2).length))
      ∧ ((breaking 16).exchangeAt 0 = .done 3#2 ∧ cycleManeuvers 3#2 = [.fwd] ++ .pivl :: [] ∧ 7 < 8
          ∧ (breaking 16).exchangesSucceed (1 + 8 * [Maneuver.fwd].length + 7)
          ∧ exchangeSucceeds ((breaking 16).exchangeAt (1 + 8 * [Maneuver.fwd].length + 7)) = false) :=
  ⟨⟨on_running _ _, by decide⟩, ⟨by decide, on_succeeds _ 17⟩,
    by decide, by decide, by decide, breaking_succeeds 16, by
      show exchangeSucceeds ((breaking 16).exchangeAt 16) = false
      rw [breaking_fails]; rfl⟩

/-- A configured state whose first sample reads channel 6 low. -/
def lowFirst (n : Nat) : State := on 0#6 (.done 2#2 :: List.replicate n ok)

theorem lowFirst_succeeds (n : Nat) : (lowFirst n).exchangesSucceed (n + 1) := by
  intro k hk
  cases k with
  | zero => rfl
  | succ k => simp [State.exchangeAt, lowFirst, on, fresh, show k < n from by omega, ok, exchangeSucceeds]

theorem witness_NavtickCounts :
    ((lowFirst 48).running ∧ (lowFirst 48).exchangeAt 0 = .done 2#2 ∧ (2#2).getLsbD 0 = false
        ∧ (lowFirst 48).exchangesSucceed 49)
      ∧ ((on 0#6 (List.replicate 17 ok)).running ∧ (on 0#6 (List.replicate 17 ok)).exchangeAt 0 = .done 3#2
          ∧ (3#2).getLsbD 0 = true ∧ (on 0#6 (List.replicate 17 ok)).exchangesSucceed 17) :=
  ⟨⟨on_running _ _, by decide, by decide, lowFirst_succeeds 48⟩, on_running _ _, by decide, by decide, on_succeeds _ 17⟩

theorem witness_NavtickMemoryless : (on 5#6 []).running ∧ (0#2).getLsbD 0 = (2#2).getLsbD 0 :=
  ⟨on_running _ _, by decide⟩

theorem witness_ContickWhole :
    (on 5#6 []).running ∧ (on 5#6 [.done 0#2]).exchangeAt 0 = .done 0#2 ∧ (breaking 0).exchangeAt 0 = .failed :=
  ⟨on_running _ _, by decide⟩

theorem witness_ContickKeyCompletes :
    (on 5#6 (List.replicate 3 ok)).running
      ∧ (dispatchKey (on 5#6 [ok]).cfg.keymap 0x37#8 = .noAction ∧ (on 5#6 [ok]).exchangeAt 0 = .done 3#2)
      ∧ dispatchKey (on 5#6 [ok]).cfg.keymap 0x30#8 = .resetCounters
      ∧ (dispatchKey (on 5#6 [ok]).cfg.keymap 0x36#8 = .toggleChannel 5
          ∧ (on 5#6 (List.replicate 1 ok)).exchangesSucceed 1 ∧ (on 5#6 [ok, ok]).exchangeAt 1 = .done 3#2)
      ∧ (dispatchKey (on 5#6 [ok]).cfg.keymap 0x6E#8 = .bridge .c .brake
          ∧ (on 5#6 (List.replicate 2 ok)).exchangesSucceed 2 ∧ (on 5#6 [ok, ok, ok]).exchangeAt 2 = .done 3#2)
      ∧ (dispatchKey (on 5#6 [ok]).cfg.keymap 0x1B#8 = .quit
          ∧ exchangeSucceeds ((on 5#6 [ok, ok]).exchangeAt 1) = true) :=
  ⟨on_running _ _, by decide, by decide, ⟨by decide, on_succeeds _ 1, by decide⟩, ⟨by decide, on_succeeds _ 2, by decide⟩,
    by decide⟩

theorem witness_ContickKeyAborts :
    (breaking 0).running
      ∧ (dispatchKey (breaking 0).cfg.keymap 0x37#8 = .noAction ∧ (breaking 0).exchangeAt 0 = .failed)
      ∧ dispatchKey (breaking 0).cfg.keymap 0x30#8 = .resetCounters
      ∧ (dispatchKey (breaking 1).cfg.keymap 0x31#8 = .toggleChannel 0
          ∧ exchangeSucceeds ((breaking 1).exchangeAt 0) = true ∧ (breaking 1).exchangeAt 1 = .failed)
      ∧ (dispatchKey (breaking 1).cfg.keymap 0x41#8 = .bridge .a .left
          ∧ exchangeSucceeds ((breaking 0).exchangeAt 0) = false ∧ exchangeSucceeds ((breaking 1).exchangeAt 1) = false
          ∧ (breaking 2).exchangesSucceed 2 ∧ (breaking 2).exchangeAt 2 = .failed)
      ∧ (dispatchKey (breaking 1).cfg.keymap 0x71#8 = .quit ∧ (breaking 1).exchangeAt 0 = .done 3#2) :=
  ⟨on_running _ _, by decide, by decide, by decide, ⟨by decide, by decide, by decide, breaking_succeeds 2, by decide⟩,
    by decide⟩

theorem witness_ResetCountersReport :
    (on 5#6 [ok]).running ∧ (on 5#6 [ok]).cfg.legal = true ∧ (on 5#6 [ok]).exchangeAt 0 = .done 3#2 :=
  ⟨on_running _ _, by decide⟩

/-- A 2-bit counter at its highest value. -/
def saturated : State := { on 5#6 [.done 0#2] with cnt6 := 3, cnt7 := 3, cfg := { settings with cntWidth := some 2 } }

theorem saturated_fits : counterFits saturated.cfg.cntWidth 3 := fun w h => by
  cases h; decide

theorem witness_CountersOnlyRise :
    (∃ t, exec .contick saturated = .next t) ∧ Instr.contick ≠ .contickKey 0x30#8
      ∧ counterFits saturated.cfg.cntWidth saturated.cnt6 ∧ counterFits saturated.cfg.cntWidth saturated.cnt7
      ∧ (∃ t, exec .sense saturated = .next t) ∧ Instr.sense ≠ .contick ∧ (∀ key, Instr.sense ≠ .contickKey key) :=
  ⟨⟨_, rfl⟩, by decide, saturated_fits, saturated_fits, ⟨_, rfl⟩, by decide, fun _ h => nomatch h⟩

theorem witness_BridgeKeyActsAsBridge :
    (on 5#6 (List.replicate 3 ok)).running ∧ (on 5#6 (List.replicate 3 ok)).exchangesSucceed 3
      ∧ dispatchKey (on 5#6 (List.replicate 3 ok)).cfg.keymap 0x67#8 = .bridge .c .left :=
  ⟨on_running _ _, on_succeeds _ 3, by decide⟩

theorem witness_TakeFaultEffect :
    (fresh []).dirset = false
      ∧ ((on 5#6 [ok]).dirset = true ∧ exchangeSucceeds ((on 5#6 [ok]).exchangeAt 0) = true)
      ∧ ((breaking 0).dirset = true ∧ exchangeSucceeds ((breaking 0).exchangeAt 0) = false) := by decide

theorem witness_PrologueOrder :
    ((down 2#4 []).seq = .halt ∧ (down 2#4 []).halted = true)
      ∧ ((fresh []).seq = .ready ∧ (fresh []).halted = false ∧ decode 0x0D000000#32 = .error .reservedOpcode)
      ∧ (decode 0x04060000#32 = .ok (.set 6#8) ∧ (fresh []).dirset = false)
      ∧ ((on 5#6 []).dirset = true ∧ decode 0x04060000#32 = .ok (.set 6#8)) := by decide

theorem witness_PrologueOrder_setdir : ∃ a, decode 0x01000000#32 = .ok (.setdir a) := ⟨0#8, by decide⟩

theorem witness_HaltedUntilReset :
    (down 3#4 []).halted = true ∧ (down 3#4 []).seq = .halt
      ∧ (∀ ms, ({ down 3#4 [] with moves := [.word 0xFFFFFFFF#32] } : State).moves ≠ .reset :: ms) :=
  ⟨rfl, rfl, fun _ h => nomatch h⟩

theorem witness_FaultLeavesOutputsOff :
    ((on 5#6 [ok]).halted = false ∧ ∃ t, exec (.set 6#8) (on 5#6 [ok]) = .next t ∧ t.halted = true ∧ t.dirset = true)
      ∧ ∃ t, exec .read (fresh []) = .next t ∧ t.halted = true ∧ t.dirset = false :=
  ⟨⟨rfl, _, rfl, rfl, rfl⟩, _, rfl, rfl, rfl⟩

theorem witness_ConsoleFaultsOnlyByDevice :
    (breaking 0).running ∧ (∃ t, exec .contick (breaking 0) = .next t)
      ∧ ∃ t, exec (.contickKey 0x71#8) (breaking 1) = .next t :=
  ⟨on_running _ _, ⟨_, rfl⟩, _, rfl⟩

theorem witness_DirectionMaskWriteOnce :
    ((∀ a, Instr.zeroall ≠ .setdir a) ∧ ∃ t, exec .zeroall (on 5#6 [ok]) = .next t)
      ∧ (({ on 5#6 [ok] with moves := [.word 0x013F0000#32] } : State).Inv
          ∧ ∃ t, step { on 5#6 [ok] with moves := [.word 0x013F0000#32] } = .next t) :=
  ⟨⟨(fun _ h => nomatch h), _, rfl⟩, on_inv _ _ _, _, rfl⟩

theorem witness_CommandFrame : ∃ t, exec .navtick (on 5#6 [ok, .failed, ok]) = .next t := ⟨_, rfl⟩

theorem witness_InputPinsReachOnlySamples :
    (Instr.write 1#8 1#8 ≠ .read ∧ Instr.write 1#8 1#8 ≠ .sense)
      ∧ ∀ n, exchangeSucceeds (({ on 5#6 [.done 0#2] with env := [.done 3#2] } : State).exchangeAt n)
        = exchangeSucceeds ((on 5#6 [.done 0#2]).exchangeAt n) :=
  ⟨by decide, fun n => by cases n <;> rfl⟩

theorem witness_TimingTable :
    (on 0#6 (List.replicate 17 ok)).halted = false
      ∧ (∃ t, exec .navtick (on 0#6 (List.replicate 17 ok)) = .next t ∧ t.halted = false)
      ∧ (on 0#6 (List.replicate 17 ok)).exchangeAt 0 = .done 3#2 :=
  ⟨rfl, ⟨_, rfl, rfl⟩, rfl⟩

theorem witness_StepRunsDecoded :
    (on 5#6 []).seq = .ready ∧ (down 1#4 []).seq = .halt ∧ decode 0x08030000#32 = .ok (.manv 3#8)
      ∧ (Instr.manv 3#8).WellFormed := by decide

theorem witness_ByteTransportAssembles :
    ((on 5#6 []).seq = .ready ∧ (on 5#6 []).rx = []) ∧ ((down 1#4 []).seq = .halt ∧ (down 1#4 []).rx = []) := by decide

theorem witness_MicroStepsRefineExecution : (on 5#6 []).seq = .ready ∧ (down 1#4 []).seq = .halt ∧ 58 ≤ 58 := by decide

theorem witness_TicksPassAWait :
    (currentMicro (.manv 0#8) 4 (on 5#6 []) = some ⟨[], .wait .cmd⟩ ∧ 1 ≤ delayTicks settings .cmd)
      ∧ (currentMicro .contick 1 (on 5#6 []) = some ⟨[.count], .wait .con⟩ ∧ (on 5#6 []).hidden.waitLeft = none) := by
  decide

theorem witness_StepKeepsInvariant :
    ({ on 5#6 [ok] with moves := [.offer 0x0A000000#32] } : State).Inv
      ∧ ∃ t, step { on 5#6 [ok] with moves := [.offer 0x0A000000#32] } = .next t :=
  ⟨on_inv _ _ _, _, rfl⟩

theorem witness_InvariantNeverStops : ({ on 5#6 [] with moves := [] } : State).Inv := on_inv _ _ _

theorem witness_BootDutyAvoidsConfigurationFaults :
    ({ on 5#6 [ok] with moves := [.word 0x03000000#32, .reset, .word 0x013F0000#32] } : State).Inv
      ∧ ({ on 5#6 [ok] with moves := [.word 0x03000000#32, .reset, .word 0x013F0000#32] } : State).bootDutyMet
      ∧ ({ fresh [ok] with moves := [.word 0x013F0000#32] } : State).bootDutyMet :=
  ⟨on_inv _ _ _, ⟨by decide, trivial⟩, by decide, trivial⟩

theorem witness_ZeroallAndQuitShutDown :
    (on 5#6 [ok, ok]).running ∧ (on 5#6 [ok, ok]).moves = []
      ∧ (∃ t, exec .zeroall (on 5#6 [ok, ok]) = .next t)
      ∧ dispatchKey (on 5#6 [ok, ok]).cfg.keymap 0x51#8 = .quit
      ∧ ∃ t, exec (.contickKey 0x51#8) (on 5#6 [ok, ok]) = .next t :=
  ⟨on_running _ _, rfl, ⟨_, rfl⟩, by decide, _, rfl⟩

theorem witness_PendingMovesWait :
    (({ on 5#6 [ok] with seq := .exec (.bridge 1#8 1#8) 1, moves := [.word 0x09000000#32] } : State).moves
          = .word 0x09000000#32 :: [] ∧ (Move.word 0x09000000#32).brings = true
        ∧ (Move.offer 0x09000000#32).brings = true ∧ (Move.byte 0x09#8).brings = true
        ∧ (currentMicro (.bridge 1#8 1#8) 1 (on 5#6 [ok])).isSome = true)
      ∧ (({ on 5#6 [ok] with seq := .faulting .deviceUnavailable false, moves := [.byte 1#8] } : State).seq
          = .faulting .deviceUnavailable false
        ∧ ({ on 5#6 [ok] with seq := .faulting .deviceUnavailable true, moves := [.go] } : State).moves
          = .go :: []) := by decide

/-- A run of one SENSE that no exchange fails. -/
def sensing : State := { on 5#6 [ok] with moves := [.word 0x09000000#32] }

theorem witness_NoFaultRunsAnswerOk : sensing.noFault := by
  intro k t h
  cases k with
  | zero => cases h; rfl
  | succ n =>
    obtain ⟨u, hu, hn⟩ := run_succ_next h
    cases hu
    rw [run_of_fixed rfl] at hn
    cases hn; rfl

end Sys2Proof.Tests
end

section
/-! SUPPORT. What the register updates of a micro-step and its primitive do to the state. -/

namespace Sys2Proof.Machine

/-! ### Register updates -/

/-- `s` with the registers that register updates write taken from `t`. -/
def State.withRegisters (s t : State) : State :=
  { s with
    out := t.out, dir := t.dir, dirset := t.dirset, cnt6 := t.cnt6, cnt7 := t.cnt7
    hidden := { s.hidden with burst := t.hidden.burst, quit := t.hidden.quit } }

theorem applyUpdate_frame (s : State) (u : RegUpdate) :
    applyUpdate s u = s.withRegisters (applyUpdate s u) := by cases u <;> rfl

/-- What each register update of a micro-step keeps, all of them keep. -/
theorem enterMicro_induction {P : State → Prop} {m : MicroStep} {s : State}
    (hu : ∀ t, ∀ u ∈ m.pre, P t → P (applyUpdate t u)) (h : P s) : P (enterMicro m s) := by
  have hf : ∀ us : List RegUpdate, us ⊆ m.pre → ∀ t, P t → P (us.foldl applyUpdate t) := by
    intro us
    induction us with
    | nil => exact fun _ _ ht => ht
    | cons u us ih =>
      intro hs t ht
      obtain ⟨hu', hus⟩ := List.cons_subset.mp hs
      exact ih hus _ (hu t u hu' ht)
  unfold enterMicro
  split
  · exact h
  · exact hf _ (List.Subset.refl _) s h

theorem enterMicro_frame (m : MicroStep) (s : State) :
    enterMicro m s = s.withRegisters (enterMicro m s) :=
  enterMicro_induction (P := fun t => t = s.withRegisters t)
    (fun t u _ ht => by rw [applyUpdate_frame, ht]; rfl) rfl

@[simp] theorem enterMicro_pinsOut (m : MicroStep) (s : State) : (enterMicro m s).pinsOut = s.pinsOut :=
  (congrArg State.pinsOut (enterMicro_frame m s) :)
@[simp] theorem enterMicro_halted (m : MicroStep) (s : State) : (enterMicro m s).halted = s.halted :=
  (congrArg State.halted (enterMicro_frame m s) :)
@[simp] theorem enterMicro_err (m : MicroStep) (s : State) : (enterMicro m s).err = s.err :=
  (congrArg State.err (enterMicro_frame m s) :)
@[simp] theorem enterMicro_seq (m : MicroStep) (s : State) : (enterMicro m s).seq = s.seq :=
  (congrArg State.seq (enterMicro_frame m s) :)
@[simp] theorem enterMicro_rx (m : MicroStep) (s : State) : (enterMicro m s).rx = s.rx :=
  (congrArg State.rx (enterMicro_frame m s) :)
@[simp] theorem enterMicro_cfg (m : MicroStep) (s : State) : (enterMicro m s).cfg = s.cfg :=
  (congrArg State.cfg (enterMicro_frame m s) :)
@[simp] theorem enterMicro_ticks (m : MicroStep) (s : State) : (enterMicro m s).ticks = s.ticks :=
  (congrArg State.ticks (enterMicro_frame m s) :)
@[simp] theorem enterMicro_sample (m : MicroStep) (s : State) :
    (enterMicro m s).hidden.sample = s.hidden.sample :=
  congrArg (fun t => t.hidden.sample) (enterMicro_frame m s)
@[simp] theorem enterMicro_waitLeft (m : MicroStep) (s : State) :
    (enterMicro m s).hidden.waitLeft = s.hidden.waitLeft :=
  congrArg (fun t => t.hidden.waitLeft) (enterMicro_frame m s)

/-- A Wait under way has the register updates behind it. -/
theorem enterMicro_waiting (m : MicroStep) {s : State} (h : s.hidden.waitLeft.isSome = true) :
    enterMicro m s = s := if_pos h

/-- The position is what decides the next micro-step, with the configuration and the sample. -/
theorem currentMicro_congr (c : Instr) (k : Nat) {s t : State} (hc : t.cfg = s.cfg)
    (hs : t.hidden.sample = s.hidden.sample) : currentMicro c k t = currentMicro c k s := by
  simp [currentMicro, State.sampled, hc, hs]

/-! ### Micro-steps -/

/-- What a micro-step does after its register updates: a failed exchange raises a fault, and each primitive
that succeeds has its effect. -/
theorem perform_cases (m : MicroStep) (s : State) :
    ((m.prim = .commit ∨ m.prim = .sample)
        ∧ perform m s = .raised .deviceUnavailable (enterMicro m s).exchangeLost)
      ∨ (m.prim = .commit
          ∧ perform m s = .going ((enterMicro m s).committed (enterMicro m s).out).advance)
      ∨ (m.prim = .sample ∧ ∃ p, perform m s = .going (State.advance
          { (enterMicro m s).sampledOnce with hidden := { (enterMicro m s).hidden with sample := some p } }))
      ∨ (∃ d, m.prim = .wait d
          ∧ perform m s = .going ((enterMicro m s).endWait (waitTicks d (enterMicro m s))))
      ∨ ∃ r, m.prim = .respond r ∧ perform m s = .going (finish r (enterMicro m s)) := by
  unfold perform
  cases m.prim with
  | commit =>
    cases hx : exchangeSucceeds ((enterMicro m s).exchangeAt 0) with
    | true => simp [commit_done hx]
    | false => simp [commit_failed hx]
  | sample =>
    cases hx : exchangeSucceeds ((enterMicro m s).exchangeAt 0) with
    | true =>
      obtain ⟨p, hp⟩ := exchange_done_of_succeeds hx
      exact .inr (.inr (.inl ⟨rfl, p, by simp [takeSample_done hp]⟩))
    | false => simp [takeSample_failed hx]
  | wait d => simp
  | respond r => simp

theorem endWait_seq {s : State} {c : Instr} {k : Nat} (h : s.seq = .exec c k) (n : Nat) :
    (s.endWait n).seq = .exec c (k + 1) := State.advance_seq _ c k h

/-! ### The shape of a command's micro-steps -/

/-- A register update that leaves the latch alone. -/
def RegUpdate.keepsOut : RegUpdate → Bool
  | .setDir => true
  | .latch _ _ => false
  | .toggle _ => false
  | .clearCounters => true
  | .count => true
  | .burst _ => true
  | .quit => true

/-- Micro-steps that end with their one response, write the latch only before an exchange, and are over,
with the two micro-steps of a fault entry that a failed exchange leads to, within `n` steps. -/
def script : Nat → List MicroStep → Bool
  | _, [] => false
  | 0, _ :: _ => false
  | n + 1, m :: ms =>
    match m.prim with
    | .commit => decide (2 ≤ n) && script n ms
    | .sample => decide (2 ≤ n) && script n ms
    | .wait _ => m.pre.all RegUpdate.keepsOut && script n ms
    | .respond _ => m.pre.all RegUpdate.keepsOut && ms.isEmpty

/-- What a script says of its first micro-step. -/
theorem script_cons {n : Nat} {m : MicroStep} {ms : List MicroStep} (h : script n (m :: ms) = true) :
    ∃ n', n = n' + 1
      ∧ (((m.prim = .commit ∨ m.prim = .sample) ∧ 2 ≤ n' ∧ script n' ms = true)
        ∨ (∃ d, m.prim = .wait d ∧ m.pre.all RegUpdate.keepsOut = true ∧ script n' ms = true)
        ∨ ∃ r, m.prim = .respond r ∧ m.pre.all RegUpdate.keepsOut = true ∧ ms = []) := by
  cases n with
  | zero => exact absurd h (by simp [script])
  | succ n =>
    refine ⟨n, rfl, ?_⟩
    cases hp : m.prim <;> simpa [script, hp] using h

/-- What a script says of its micro-step `k`: it is the response or there is a next one, and it leaves the
latch alone unless it is an exchange. -/
theorem script_at {n : Nat} {l : List MicroStep} {k : Nat} {m : MicroStep} (h : script n l = true)
    (hm : l[k]? = some m) :
    ((∃ r, m.prim = .respond r) ∨ (l[k + 1]?).isSome = true)
      ∧ (m.prim = .commit ∨ m.prim = .sample ∨ m.pre.all RegUpdate.keepsOut = true) := by
  induction l generalizing n k with
  | nil => simp at hm
  | cons m' ms ih =>
    obtain ⟨n', -, hc⟩ := script_cons h
    cases k with
    | zero =>
      obtain rfl : m' = m := by simpa using hm
      have hnext : script n' ms = true → ((m' :: ms)[0 + 1]?).isSome = true := by
        cases ms <;> simp [script]
      rcases hc with ⟨hp, -, hs⟩ | ⟨d, hp, hk, hs⟩ | ⟨r, hp, hk, -⟩
      · exact ⟨.inr (hnext hs), hp.imp_right .inl⟩
      · exact ⟨.inr (hnext hs), .inr (.inr hk)⟩
      · exact ⟨.inl ⟨r, hp⟩, .inr (.inr hk)⟩
    | succ k =>
      rcases hc with ⟨-, -, hs⟩ | ⟨d, -, -, hs⟩ | ⟨r, -, -, rfl⟩
      · exact ih hs hm
      · exact ih hs hm
      · simp at hm

/-! ### The plans of the commands -/

/-- Without a direction mask the only command whose checks pass is the SETDIR that sets it. -/
theorem eq_setdir_of_check {cfg : Config} {c : Instr} (h : (planOf cfg c).check false = none) :
    c = .setdir dirMask := by
  cases c with
  | setdir a =>
    by_cases ha : a = dirMask
    · rw [ha]
    · simp [planOf, setdirPlan, straightPlan, setdirCheck, ha] at h
  | _ => exact absurd h (by simp [planOf, writePlan, readPlan, setPlan, clrPlan, tglPlan, bridgePlan, manvPlan,
      sensePlan, navtickPlan, contickPlan, contickKeyPlan, consolePlan, zeroallPlan, straightPlan,
      whenConfigured])

/-- The operands of a command whose checks pass raise no fault. -/
theorem operandsLegal_of_check {cfg : Config} {c : Instr} {dirset : Bool}
    (h : (planOf cfg c).check dirset = none) : operandsLegal cfg c := by
  cases dirset with
  | false => exact .inl h
  | true => exact .inr h

/-- BRIDGE's operands are legal when they name a pair and a command. -/
theorem bridgeOperands_of_legal {cfg : Config} {a b : Byte} (h : operandsLegal cfg (.bridge a b)) :
    ∃ p c, pairOfCode a = some p ∧ bridgeCommandOfCode b = some c := by
  have hc : bridgeCheck a b = none := by
    rcases h with h | h
    · cases eq_setdir_of_check h
    · exact h
  cases hp : pairOfCode a <;> cases hb : bridgeCommandOfCode b <;> simp [bridgeCheck, hp, hb] at hc ⊢

/-- The micro-steps of a console cycle. -/
theorem script_consolePlan (act : KeyAction) : script 57 (consolePlan act).head = true := by
  cases act <;> rfl

/-- The micro-steps of a navigation cycle after its sample: at most 56. -/
theorem script_navtick_tail (smp : Sensors) : script 56 (navtickPlan.tail smp) = true := by
  simp only [navtickPlan, navActions]
  split <;> rfl

/-- Every command but NAVTICK has micro-steps that do not depend on its sample. -/
theorem planOf_straight (cfg : Config) (c : Instr) (h : c ≠ .navtick) :
    planOf cfg c = straightPlan (planOf cfg c).check (planOf cfg c).head := by
  cases c with
  | navtick => exact absurd rfl h
  | _ => rfl

/-- Every command but NAVTICK is over within 57 steps. -/
theorem script_head {cfg : Config} {c : Instr} (hl : operandsLegal cfg c) (h : c ≠ .navtick) :
    script 57 (planOf cfg c).head = true := by
  cases c with
  | bridge a b =>
    obtain ⟨p, d, hp, hd⟩ := bridgeOperands_of_legal hl
    simp only [planOf, bridgePlan, straightPlan, hp, hd]
    rfl
  | navtick => exact absurd rfl h
  | contickKey key => exact script_consolePlan _
  | _ => rfl

/-- The micro-steps of every command are over within 57 steps, whatever its sample. -/
theorem script_planOf {cfg : Config} {c : Instr} (hl : operandsLegal cfg c) (smp : Sensors) :
    script 57 ((planOf cfg c).head ++ (planOf cfg c).tail smp) = true := by
  by_cases h : c = .navtick
  · subst h
    exact script_navtick_tail smp
  · have hs := script_head hl h
    rw [planOf_straight cfg c h]
    simpa [straightPlan] using hs

theorem navtick_tail_no_sample (smp : Sensors) : ∀ m ∈ navtickPlan.tail smp, m.prim ≠ .sample := by
  simp only [navtickPlan, navActions]
  split <;> decide

/-- A command's samples come before anything that depends on them. -/
theorem micro?_of_sample {cfg : Config} {c : Instr} {k : Nat} {smp : Sensors} {m : MicroStep}
    (hm : (planOf cfg c).micro? k smp = some m) (hp : m.prim = .sample) (smp' : Sensors) :
    (planOf cfg c).micro? k smp' = some m := by
  by_cases h : c = .navtick
  · subst h
    cases k with
    | zero => exact hm
    | succ k => exact absurd hp (navtick_tail_no_sample smp m (List.mem_of_getElem? hm))
  · rw [planOf_straight cfg c h] at hm ⊢
    exact hm

end Sys2Proof.Machine
end

section
/-! SUPPORT. A command run one micro-step at a time reaches what its execution in one step gives (00_scope R13). -/

namespace Sys2Proof.Machine

/-! ### Runs of micro-steps -/

/-- Performing micro-steps from `s`, fault entry included, ends between commands, in `t`, within `n` of them. -/
inductive MicroRun : Nat → State → State → Prop where
  | idle {n : Nat} {t : State} : t.seq = .ready ∨ t.seq = .halt → MicroRun n t t
  | micro {n : Nat} {s t : State} {c : Instr} {k : Nat} {m : MicroStep} : s.seq = .exec c k →
      currentMicro c k s = some m → MicroRun n (perform m s).pause t → MicroRun (n + 1) s t
  | fault {n : Nat} {s t : State} {e : FaultCode} {cleaned : Bool} : s.seq = .faulting e cleaned →
      MicroRun n (faultMicro e cleaned s) t → MicroRun (n + 1) s t

theorem MicroRun.mono {n m : Nat} {s t : State} (h : MicroRun n s t) (hnm : n ≤ m) : MicroRun m s t := by
  induction h generalizing m with
  | idle hq => exact .idle hq
  | micro hq hm _ ih =>
    obtain ⟨m, rfl⟩ : ∃ j, m = j + 1 := ⟨m - 1, by omega⟩
    exact .micro hq hm (ih (by omega))
  | fault hq _ ih =>
    obtain ⟨m, rfl⟩ : ∃ j, m = j + 1 := ⟨m - 1, by omega⟩
    exact .fault hq (ih (by omega))

/-- Fault entry is at most two micro-steps, and ends where taking the fault does (60_exceptions R220). -/
theorem microRun_raise (e : FaultCode) (s : State) : MicroRun 2 (s.raise e) (takeFault e s) := by
  have ht : takeFault e (s.raise e) = takeFault e s := takeFault_at e s _ s.hidden
  refine .fault rfl ?_
  cases hd : s.dirset with
  | true =>
    refine .fault (e := e) (cleaned := true) (by simp [faultMicro, hd]) ?_
    rw [← ht]
    simp only [faultMicro, Bool.false_eq_true, if_false, State.raise_dirset, hd, if_true]
    exact .idle (.inr rfl)
  | false =>
    rw [show faultMicro e false (s.raise e) = takeFault e s by simp [faultMicro, hd, ht]]
    exact .idle (.inr (takeFault_seq e s))

/-- What a micro-step that raises no fault leaves: the response ends the command, and every other one moves on
to the next position, where only a sample can have changed what comes next. -/
theorem perform_going {m : MicroStep} {s t : State} {c : Instr} {k : Nat} (hq : s.seq = .exec c k)
    (h : perform m s = .going t) :
    (∃ r, m.prim = .respond r ∧ t.seq = .ready)
      ∨ ((∀ r, m.prim ≠ .respond r) ∧ t.seq = .exec c (k + 1) ∧ t.cfg = s.cfg
          ∧ (t.sampled = s.sampled ∨ m.prim = .sample)) := by
  have hqe : (enterMicro m s).seq = .exec c k := by simp [hq]
  rcases perform_cases m s with ⟨-, hp⟩ | ⟨hm, hp⟩ | ⟨hm, p, hp⟩ | ⟨d, hm, hp⟩ | ⟨r, hm, hp⟩ <;>
    rw [hp] at h <;> cases h
  · exact .inr ⟨by simp [hm], State.advance_seq _ c k hqe, by simp, .inl (by simp [State.sampled])⟩
  · exact .inr ⟨by simp [hm], State.advance_seq _ c k hqe, by simp, .inr hm⟩
  · exact .inr ⟨by simp [hm], endWait_seq hqe _, by simp, .inl (by simp [State.sampled])⟩
  · exact .inl ⟨r, hm, rfl⟩

/-- The micro-steps still to come at position `k` of a command are `l`, where a sample among them may yet
change what the command's sample is. -/
def Remaining (c : Instr) (k : Nat) (s : State) (l : List MicroStep) : Prop :=
  ∀ smp, (smp = s.sampled ∨ ∃ m ∈ l, m.prim = .sample) →
    ((planOf s.cfg c).head ++ (planOf s.cfg c).tail smp).drop k = l

theorem Remaining.currentMicro {c : Instr} {k : Nat} {s : State} {m : MicroStep} {ms : List MicroStep}
    (h : Remaining c k s (m :: ms)) : currentMicro c k s = some m := by
  have hd := h _ (.inl rfl)
  rw [Machine.currentMicro, Plan.micro?, ← List.head?_drop, hd, List.head?_cons]

theorem Remaining.next {c : Instr} {k : Nat} {s t : State} {m : MicroStep} {ms : List MicroStep}
    (h : Remaining c k s (m :: ms)) (hc : t.cfg = s.cfg) (ht : t.sampled = s.sampled ∨ m.prim = .sample) :
    Remaining c (k + 1) t ms := by
  intro smp hs
  have hd := h smp (by
    rcases hs with rfl | ⟨m', hm', hp⟩
    · exact ht.imp_right fun hp => ⟨m, by simp, hp⟩
    · exact .inr ⟨m', by simp [hm'], hp⟩)
  rw [hc, ← List.tail_drop, hd, List.tail_cons]

/-- One micro-step of a script: a raised fault is taken, the response ends the command, and otherwise what
follows has one step less. -/
theorem microRun_cons {c : Instr} {k n : Nat} {s : State} {m : MicroStep} {ms : List MicroStep} {f : State → Flow}
    (hq : s.seq = .exec c k) (hm : currentMicro c k s = some m) (hs : script n (m :: ms) = true)
    (hend : ms = [] → ∀ t, f t = .going t)
    (hf : ∀ n' t, n = n' + 1 → script n' ms = true → t.seq = .exec c (k + 1) → t.cfg = s.cfg →
      (t.sampled = s.sampled ∨ m.prim = .sample) → MicroRun n' t (f t).settle) :
    MicroRun n s ((perform m s).andThen f).settle := by
  obtain ⟨n, rfl, hc⟩ := script_cons hs
  refine .micro hq hm ?_
  cases hp : perform m s with
  | raised e t =>
    have h2 : 2 ≤ n := by
      rcases hc with ⟨-, h2, -⟩ | ⟨d, hd, -⟩ | ⟨r, hr, -⟩
      · exact h2
      · simp [perform, hd] at hp
      · simp [perform, hr] at hp
    exact (microRun_raise e t).mono h2
  | going t =>
    rcases perform_going hq hp with ⟨r, hr, ht⟩ | ⟨hr, ht, hcfg, hsmp⟩
    · obtain ⟨-, hms⟩ : m.pre.all RegUpdate.keepsOut = true ∧ ms = [] := by simpa [hr] using hc
      rw [andThen_going, hend hms]
      exact .idle (.inl ht)
    · have hsc : script n ms = true := by
        rcases hc with ⟨-, -, hsc⟩ | ⟨d, -, -, hsc⟩ | ⟨r, hr', -⟩
        · exact hsc
        · exact hsc
        · exact absurd hr' (hr r)
      exact hf n t rfl hsc ht hcfg hsmp

/-- The micro-steps still to come, performed one by one, end where they end in one go. -/
theorem microRun_runSteps {c : Instr} {k n : Nat} {s : State} {l : List MicroStep} (hq : s.seq = .exec c k)
    (hl : Remaining c k s l) (hs : script n l = true) : MicroRun n s (runSteps l s).settle := by
  induction l generalizing k n s with
  | nil => simp [script] at hs
  | cons m ms ih =>
    refine microRun_cons hq hl.currentMicro hs (by rintro rfl _; rfl) fun n' t _ hs' hq' hc ht => ?_
    exact ih hq' (hl.next hc ht) hs'

/-- A command performed one micro-step at a time ends where its plan, run in one go, does. -/
theorem microRun_runPlan {c : Instr} {s : State} (hl : operandsLegal s.cfg c) (hq : s.seq = .exec c 0) :
    MicroRun 57 s (runPlan (planOf s.cfg c) s).settle := by
  by_cases h : c = .navtick
  · subst h
    have hrun : runPlan navtickPlan s
        = (perform ⟨[], .sample⟩ s).andThen fun t => runSteps (navtickPlan.tail t.sampled) t := by
      cases hp : perform ⟨[], .sample⟩ s <;> simp [runPlan, navtickPlan, hp]
    rw [show planOf s.cfg .navtick = navtickPlan from rfl, hrun]
    have htail := script_navtick_tail s.sampled
    refine microRun_cons (ms := navtickPlan.tail s.sampled) hq rfl (script_planOf hl s.sampled) ?_ ?_
    · intro hnil
      rw [hnil] at htail
      cases htail
    · intro n' t hn _ hq' hc _
      obtain rfl : n' = 56 := by omega
      refine microRun_runSteps hq' ?_ (script_navtick_tail t.sampled)
      rintro smp (rfl | ⟨m, hm, hp⟩)
      · rfl
      · exact absurd hp (navtick_tail_no_sample _ m hm)
  · rw [planOf_straight _ c h, runPlan_straight]
    refine microRun_runSteps hq (fun smp _ => ?_) (script_head hl h)
    rw [planOf_straight _ c h]
    simp [straightPlan]

/-- The outcome of an action. -/
def Action.outcome : Action → Host.Outcome State Fault Refusal
  | .done o => o
  | .run i s => exec i s

theorem step_eq (s : State) : step s = (act s).outcome := rfl

/-- Executing an accepted word in one step ends where its micro-steps do (00_scope R13). -/
theorem acceptWord_microRun (w : Word) {s : State} (hq : s.seq = .ready ∨ s.seq = .halt) :
    ∃ t, (acceptWord w s).outcome = .next t ∧ MicroRun 57 (acceptPaused w s) t := by
  cases hh : s.halted with
  | true => exact ⟨refuseHalted s, by simp [acceptWord, hh, Action.outcome], by
      simpa [acceptPaused, hh] using .idle hq⟩
  | false =>
    cases hd : decode w with
    | error e =>
      refine ⟨takeFault .illegalCommand s, by simp [acceptWord, hh, hd, Action.outcome], ?_⟩
      simpa [acceptPaused, hh, hd] using (microRun_raise .illegalCommand s).mono (by omega)
    | ok i =>
      have ha : (acceptWord w s).outcome = exec i s := by simp [acceptWord, hh, hd, Action.outcome]
      cases hc : (planOf s.cfg i).check s.dirset with
      | some e =>
        refine ⟨takeFault e s, ha.trans (exec_fault hh hc), ?_⟩
        simpa [acceptPaused, hh, hd, hc] using (microRun_raise e s).mono (by omega)
      | none =>
        refine ⟨_, ha.trans (exec_run hh hc), ?_⟩
        have hrun : MicroRun 57 (s.start i) (runPlan (planOf s.cfg i) (s.start i)).settle :=
          microRun_runPlan (operandsLegal_of_check hc) rfl
        simpa [acceptPaused, hh, hd, hc, start_eq_inProgress] using hrun

/-! ### Micro-steps as steps of the machine -/

/-- A run takes its first step first. -/
theorem run_succ {n : Nat} {s u : State} (h : step s = .next u) :
    Host.Core.run core (n + 1) s = Host.Core.run core n u := by
  refine (Host.Core.run.eq_2 core s n).trans ?_
  rw [show core.step s = .next u from h]

/-- Two states with the same first step have the same runs of a step or more. -/
theorem run_succ_congr {n : Nat} {s t : State} (h : step s = step t) :
    Host.Core.run core (n + 1) s = Host.Core.run core (n + 1) t := by
  refine (Host.Core.run.eq_2 core s n).trans (Eq.trans ?_ (Host.Core.run.eq_2 core t n).symm)
  rw [show core.step s = core.step t from h]

/-- Between commands, with no move of the host left, nothing changes (93 I20). -/
theorem step_idle_noMoves {s : State} (hq : s.seq = .ready ∨ s.seq = .halt) (hm : s.moves = []) :
    step s = .next s := by
  rcases hq with hq | hq <;> simp [step, act, hq, actIdle, hm]

theorem pause_withMoves (x : Flow) (ms : List Move) : (x.withMoves ms).pause = x.pause.withMoves ms := by
  cases x <;> rfl

/-- A micro-step leaves a host without moves without moves. -/
theorem perform_pause_noMoves {m : MicroStep} {s : State} (h : s.moves = []) : (perform m s).pause.moves = [] := by
  have hs : s.withMoves [] = s := by rw [State.withMoves, ← h]
  rw [← hs, perform_withMoves, pause_withMoves]
  rfl

/-- As `perform_pause_noMoves`, inside fault entry. -/
theorem faultMicro_noMoves {e : FaultCode} {cleaned : Bool} {s : State} (h : s.moves = []) :
    (faultMicro e cleaned s).moves = [] := by
  have hs : s.withMoves [] = s := by rw [State.withMoves, ← h]
  rw [← hs, faultMicro_withMoves]
  rfl

/-- With no move of the host left, the machine performs the micro-steps and stays where they end. -/
theorem run_of_microRun {n : Nat} {s t : State} (h : MicroRun n s t) (hm : s.moves = []) (j : Nat) (hj : n ≤ j) :
    Host.Core.run core j s = .next t := by
  induction h generalizing j with
  | idle hq => exact run_of_fixed (step_idle_noMoves hq hm) j
  | micro hq hc _ ih =>
    obtain ⟨j, rfl⟩ : ∃ i, j = i + 1 := ⟨j - 1, by omega⟩
    rw [run_succ ((step_exec hq (.inl hm)).trans (by rw [microStep, hc]))]
    exact ih (perform_pause_noMoves hm) j (by omega)
  | fault hq _ ih =>
    obtain ⟨j, rfl⟩ : ∃ i, j = i + 1 := ⟨j - 1, by omega⟩
    rw [run_succ (step_faulting hq (.inl hm))]
    exact ih (faultMicro_noMoves hm) j (by omega)

/-- A step between commands is what the host's next move asks for. -/
theorem step_idle {s : State} (hq : s.seq = .ready ∨ s.seq = .halt) : step s = (actIdle s).outcome := by
  rcases hq with hq | hq <;> rw [step_eq, act, hq]

/-- Settles O53: the word's micro-steps are a `MicroRun` of at most 57, after the step that accepts it. -/
theorem microStepsRefineExecution : Obligations.MicroStepsRefineExecution := by
  intro s w hq n hn
  obtain ⟨n, rfl⟩ : ∃ j, n = j + 1 := ⟨n - 1, by omega⟩
  obtain ⟨t, hw, hr⟩ := acceptWord_microRun w (s := s.withMoves []) hq
  have hoffer : step { s with moves := [.offer w] } = .next (acceptPaused w (s.withMoves [])) :=
    step_idle (s := { s with moves := [.offer w] }) hq
  have hword : step { s with moves := [.word w] } = .next t :=
    (step_idle (s := { s with moves := [.word w] }) hq).trans hw
  have hm : (acceptPaused w (s.withMoves [])).moves = [] := by
    unfold acceptPaused
    split
    · rfl
    · split
      · rfl
      · split <;> rfl
  rw [run_succ hoffer, hword]
  exact run_of_microRun hr hm n (by omega)

end Sys2Proof.Machine
end

section
/-! SUPPORT. A Wait passed tick by tick ends where it ends when it is passed whole (00_scope R13,
60_exceptions R228). -/

namespace Sys2Proof.Machine

/-- `s` in a Wait of which `j` ticks have passed and `n` are left. -/
def State.waiting (j n : Nat) (s : State) : State :=
  { s with ticks := s.ticks + j, hidden := { s.hidden with waitLeft := some n } }

/-- A tick of a Wait under way: the last one ends it. -/
theorem performTick_waiting (us : List RegUpdate) (d : Delay) (j n : Nat) (s : State) :
    performTick ⟨us, .wait d⟩ (s.waiting j n)
      = if n ≤ 1 then s.endWait (j + n) else s.waiting (j + 1) (n - 1) := by
  have hw : waitTicks d (s.waiting j n) = n := rfl
  simp only [performTick, enterMicro_waiting _ (s := s.waiting j n) rfl, hw]
  simp only [State.endWait, State.waiting, Nat.add_assoc]

/-- The first tick of a Wait does the register updates before it. -/
theorem performTick_first (us : List RegUpdate) (d : Delay) {s : State} (h : s.hidden.waitLeft = none) :
    performTick ⟨us, .wait d⟩ s
      = performTick ⟨us, .wait d⟩ ((enterMicro ⟨us, .wait d⟩ s).waiting 0 (delayTicks s.cfg d)) := by
  have hw : waitTicks d (enterMicro ⟨us, .wait d⟩ s) = delayTicks s.cfg d := by simp [waitTicks, h]
  rw [performTick_waiting]
  simp only [performTick, hw, Nat.zero_add]
  rw [← enterMicro_ticks ⟨us, .wait d⟩ s]
  rfl

theorem performTick_withMoves (m : MicroStep) (s : State) (ms : List Move) :
    performTick m (s.withMoves ms) = (performTick m s).withMoves ms := by
  unfold performTick
  rw [enterMicro_withMoves]
  cases m.prim with
  | wait d =>
    simp only [endWait_withMoves]
    split <;> [rw [if_pos ‹_›]; rw [if_neg ‹_›]] <;> rfl
  | _ => rfl

/-- On a tick move inside a command one tick passes. -/
theorem step_tick {s : State} {c : Instr} {k : Nat} {m : MicroStep} (hq : s.seq = .exec c k)
    (hm : currentMicro c k s = some m) (ms : List Move) :
    step (s.withMoves (.tick :: ms)) = .next ((performTick m s).withMoves ms) := by
  have ht : microTick c k (s.withMoves ms) = .next ((performTick m s).withMoves ms) := by
    rw [microTick, show currentMicro c k (s.withMoves ms) = some m from hm, ← performTick_withMoves]
  rw [step_eq, act, show (s.withMoves (.tick :: ms)).seq = .exec c k from hq]
  exact ht

/-- On the move `go` inside a command the next micro-step is performed. -/
theorem step_go {s : State} {c : Instr} {k : Nat} {m : MicroStep} (hq : s.seq = .exec c k)
    (hm : currentMicro c k s = some m) (ms : List Move) :
    step (s.withMoves (.go :: ms)) = .next ((perform m s).pause.withMoves ms) := by
  have hp : microStep c k (s.withMoves ms) = .next ((perform m s).pause.withMoves ms) := by
    rw [microStep, show currentMicro c k (s.withMoves ms) = some m from hm, ← pause_withMoves,
      ← perform_withMoves]
  rw [step_eq, act, show (s.withMoves (.go :: ms)).seq = .exec c k from hq]
  exact hp

/-- A tick move in a Wait under way. -/
theorem step_tick_waiting {us : List RegUpdate} {d : Delay} {c : Instr} {k : Nat} {s : State}
    (hq : s.seq = .exec c k) (hm : currentMicro c k s = some ⟨us, .wait d⟩) (j n : Nat) (ms : List Move) :
    step ((s.waiting j n).withMoves (.tick :: ms))
      = .next ((if n ≤ 1 then s.endWait (j + n) else s.waiting (j + 1) (n - 1)).withMoves ms) := by
  rw [← performTick_waiting us d]
  exact step_tick (s := s.waiting j n) hq hm ms

/-- `n` ticks end a Wait of which `n` ticks are left. -/
theorem run_ticks {us : List RegUpdate} {d : Delay} {c : Instr} {k : Nat} {s : State} (hq : s.seq = .exec c k)
    (hm : currentMicro c k s = some ⟨us, .wait d⟩) (ms : List Move) {n : Nat} (hn : 1 ≤ n) (j : Nat) :
    Host.Core.run core n ((s.waiting j n).withMoves (List.replicate n .tick ++ ms))
      = .next ((s.endWait (j + n)).withMoves ms) := by
  induction n, hn using Nat.le_induction generalizing j with
  | base => exact run_succ (step_tick_waiting hq hm j 1 ms)
  | succ n hn ih =>
    have hstep := step_tick_waiting hq hm j (n + 1) (List.replicate n .tick ++ ms)
    rw [if_neg (by omega), Nat.add_sub_cancel] at hstep
    rw [show j + (n + 1) = j + 1 + n by omega]
    exact (run_succ hstep).trans (ih (j + 1))

/-- Settles O54: the first tick does the register updates, and each tick takes one from the Wait. -/
theorem ticksPassAWait : Obligations.TicksPassAWait := by
  intro s c k us d ms hq hw hm hd
  have hqe : (enterMicro ⟨us, .wait d⟩ s).seq = .exec c k := (enterMicro_seq _ s).trans hq
  have hme : currentMicro c k (enterMicro ⟨us, .wait d⟩ s) = some ⟨us, .wait d⟩ :=
    (currentMicro_congr c k (enterMicro_cfg _ s) (enterMicro_sample _ s)).trans hm
  have hfirst : ∀ ms', step (s.withMoves (.tick :: ms'))
      = step (((enterMicro ⟨us, .wait d⟩ s).waiting 0 (delayTicks s.cfg d)).withMoves (.tick :: ms')) := by
    intro ms'
    rw [step_tick hq hm, performTick_first us d hw]
    exact (step_tick (s := (enterMicro ⟨us, .wait d⟩ s).waiting 0 (delayTicks s.cfg d)) hqe hme ms').symm
  have hgo : (perform ⟨us, .wait d⟩ s).pause = (enterMicro ⟨us, .wait d⟩ s).endWait (delayTicks s.cfg d) := by
    simp [perform, waitTicks, hw, Flow.pause]
  have hrun := run_ticks hqe hme ms hd 0
  rw [Nat.zero_add, ← hgo] at hrun
  refine Eq.trans ?_ (hrun.trans (step_go hq hm ms).symm)
  obtain ⟨n, hn⟩ : ∃ n, delayTicks s.cfg d = n + 1 := ⟨delayTicks s.cfg d - 1, by omega⟩
  rw [hn] at hfirst ⊢
  exact run_succ_congr (hfirst (List.replicate n Move.tick ++ ms))

end Sys2Proof.Machine
end

section
/-! SUPPORT. Every step keeps the invariant: each micro-step does, and a step between commands is a run of them. -/

namespace Sys2Proof.Machine

/-! ### A configured controller that runs -/

/-- What a configured controller that is not halted keeps in every position of a command. -/
structure State.Steady (s : State) : Prop where
  dirset : s.dirset = true
  dir : s.dir = 0x3F#8
  halted : s.halted = false
  err : s.err = 0#4
  counters : counterFits s.cfg.cntWidth s.cnt6 ∧ counterFits s.cfg.cntWidth s.cnt7
  partialWord : s.rx.length ≤ 3

theorem State.Steady.inv_exec {s : State} {c : Instr} {k : Nat} (h : s.Steady) (hq : s.seq = .exec c k)
    (hpins : s.pinsOut = .driven s.out) (hl : operandsLegal s.cfg c) (hm : (currentMicro c k s).isSome = true)
    (hw : s.hidden.waitLeft.isSome = true → ∃ m d, currentMicro c k s = some m ∧ m.prim = .wait d) : s.Inv where
  dirMask _ := h.dir
  pins := by simpa [pinsAgree, h.dirset, hq] using hpins
  status := by simp [statusAgrees, hq, h.halted, h.err]
  position := by
    rw [positionValid, hq]
    exact ⟨hl, hm, .inl h.dirset, hw⟩
  counters := h.counters
  partialWord := h.partialWord

theorem State.Steady.inv_ready {s : State} (h : s.Steady) (hq : s.seq = .ready)
    (hpins : s.pinsOut = .driven s.out) (hh : s.hidden = .idle) : s.Inv where
  dirMask _ := h.dir
  pins := by simpa [pinsAgree, h.dirset, hq] using hpins
  status := by simp [statusAgrees, hq, h.halted, h.err]
  position := by simpa [positionValid, hq] using hh
  counters := h.counters
  partialWord := h.partialWord

theorem State.Steady.inv_raised {s : State} {e : FaultCode} (h : s.Steady) (hq : s.seq = .faulting e false)
    (hpins : s.pinsOut = .driven s.out ∨ s.pinsOut = .unknown) : s.Inv where
  dirMask _ := h.dir
  pins := by simpa [pinsAgree, h.dirset, hq] using hpins
  status := by simp [statusAgrees, hq, h.halted, h.err]
  position := by simp [positionValid, hq]
  counters := h.counters
  partialWord := h.partialWord

/-- Steadiness does not look at the latch, the pins, the position, the hidden values or what was observed. -/
theorem State.Steady.congr {s t : State} (h : s.Steady) (hds : t.dirset = s.dirset := by simp)
    (hd : t.dir = s.dir := by simp) (hh : t.halted = s.halted := by simp) (he : t.err = s.err := by simp)
    (hc : t.cfg = s.cfg := by simp) (h6 : t.cnt6 = s.cnt6 := by simp) (h7 : t.cnt7 = s.cnt7 := by simp)
    (hr : t.rx = s.rx := by simp) : t.Steady :=
  ⟨hds.trans h.dirset, hd.trans h.dir, hh.trans h.halted, he.trans h.err, by rw [hc, h6, h7]; exact h.counters,
    by rw [hr]; exact h.partialWord⟩

/-! ### Register updates -/

theorem countLow_fits {w : Option Nat} {x : Nat} (h : counterFits w x) (high : Bool) :
    counterFits w (countLow w high x) := by
  rintro n rfl
  cases high with
  | true => exact h n rfl
  | false => exact Nat.min_le_right _ _

theorem applyUpdate_steady {s : State} (h : s.Steady) (u : RegUpdate) : (applyUpdate s u).Steady := by
  cases u with
  | setDir => exact { h with dirset := rfl, dir := rfl }
  | clearCounters => exact { h with counters := ⟨fun _ _ => Nat.zero_le _, fun _ _ => Nat.zero_le _⟩ }
  | count => exact { h with counters := ⟨countLow_fits h.counters.1 _, countLow_fits h.counters.2 _⟩ }
  | _ => exact { h with }

theorem enterMicro_steady {s : State} (h : s.Steady) (m : MicroStep) : (enterMicro m s).Steady :=
  enterMicro_induction (fun _ u _ ht => applyUpdate_steady ht u) h

theorem applyUpdate_out {u : RegUpdate} (h : u.keepsOut = true) (s : State) : (applyUpdate s u).out = s.out := by
  cases u with
  | latch _ _ => cases h
  | toggle _ => cases h
  | _ => rfl

/-- Register updates that leave the latch alone. -/
theorem enterMicro_out {m : MicroStep} (h : m.pre.all RegUpdate.keepsOut = true) (s : State) :
    (enterMicro m s).out = s.out :=
  enterMicro_induction (P := fun t => t.out = s.out)
    (fun t _ hu ht => (applyUpdate_out (List.all_eq_true.mp h _ hu) t).trans ht) rfl

/-! ### Micro-steps -/

/-- The invariant inside a command, read at its next micro-step: its register updates leave the controller
configured and running, with the pins as the latch unless an exchange follows, and only a Wait is under way. -/
theorem State.Inv.at_micro {s : State} {c : Instr} {k : Nat} {m : MicroStep} (h : s.Inv)
    (hq : s.seq = .exec c k) (hm : currentMicro c k s = some m) :
    operandsLegal s.cfg c ∧ (enterMicro m s).Steady
      ∧ (s.hidden.waitLeft = none ∨ ∃ d, m.prim = .wait d)
      ∧ (m.prim = .commit ∨ m.prim = .sample ∨ (enterMicro m s).pinsOut = .driven (enterMicro m s).out) := by
  obtain ⟨hdir, hpins, hstatus, hpos, hcnt, hrx⟩ := h
  rw [positionValid, hq] at hpos
  rw [statusAgrees, hq] at hstatus
  obtain ⟨hl, -, hset, hwait⟩ := hpos
  have hw : s.hidden.waitLeft = none ∨ ∃ d, m.prim = .wait d := by
    cases hs : s.hidden.waitLeft with
    | none => exact .inl rfl
    | some n =>
      obtain ⟨m', d, hm', hd⟩ := hwait (by simp [hs])
      obtain rfl : m = m' := Option.some.inj (hm.symm.trans hm')
      exact .inr ⟨d, hd⟩
  refine ⟨hl, ?_⟩
  cases hd : s.dirset with
  | true =>
    have hp : s.pinsOut = .driven s.out := by simpa [pinsAgree, hd, hq] using hpins
    refine ⟨enterMicro_steady ⟨hd, hdir hd, hstatus.1, hstatus.2, hcnt, hrx⟩ m, hw, ?_⟩
    rcases (script_at (script_planOf hl s.sampled) hm).2 with hc | hs | hk
    · exact .inl hc
    · exact .inr (.inl hs)
    · exact .inr (.inr (by simp [enterMicro_out hk, hp]))
  | false =>
    obtain ⟨rfl, rfl⟩ := hset.resolve_left (by simp [hd])
    obtain rfl : ⟨[.setDir], .commit⟩ = m := Option.some.inj hm
    have hn : s.hidden.waitLeft = none := by simpa using hw
    have he : enterMicro ⟨[.setDir], .commit⟩ s = applyUpdate s .setDir := by
      simp [enterMicro, hn]
    rw [he]
    exact ⟨⟨rfl, rfl, hstatus.1, hstatus.2, hcnt, hrx⟩, hw, .inl rfl⟩

/-- Every micro-step of a command but its response has a next one. -/
theorem currentMicro_next {s t : State} {c : Instr} {k : Nat} {m : MicroStep} (hl : operandsLegal s.cfg c)
    (hm : currentMicro c k s = some m) (hr : ∀ r, m.prim ≠ .respond r) (hc : t.cfg = s.cfg)
    (ht : t.sampled = s.sampled ∨ m.prim = .sample) : (currentMicro c (k + 1) t).isSome = true := by
  have hm' : (planOf s.cfg c).micro? k t.sampled = some m := by
    rcases ht with ht | hp
    · rw [ht]; exact hm
    · exact micro?_of_sample hm hp t.sampled
  rw [currentMicro, hc]
  exact (script_at (script_planOf hl t.sampled) hm').1.resolve_left fun ⟨r, h⟩ => hr r h

/-- A micro-step keeps the invariant, whatever its exchange answers. -/
theorem perform_inv {s : State} {c : Instr} {k : Nat} {m : MicroStep} (h : s.Inv) (hq : s.seq = .exec c k)
    (hm : currentMicro c k s = some m) : (perform m s).pause.Inv := by
  obtain ⟨hl, he, hw, hpins⟩ := h.at_micro hq hm
  have hnext : ∀ t, perform m s = .going t → (∀ r, m.prim ≠ .respond r) → t.Steady →
      t.pinsOut = .driven t.out → t.hidden.waitLeft = none → (perform m s).pause.Inv := by
    intro t hp hr ht hpins hwt
    rw [hp]
    obtain ⟨r, hr', -⟩ | ⟨-, hqt, hc, hsmp⟩ := perform_going hq hp
    · exact absurd hr' (hr r)
    · exact ht.inv_exec hqt hpins (hc ▸ hl) (currentMicro_next hl hm hr hc hsmp) (by simp [hwt])
  rcases perform_cases m s with ⟨-, hp⟩ | ⟨hc, hp⟩ | ⟨hs, p, hp⟩ | ⟨d, hd, hp⟩ | ⟨r, hr, hp⟩
  · rw [hp]
    exact State.Steady.inv_raised { he with } rfl (.inr rfl)
  · have hn : s.hidden.waitLeft = none := by simpa [hc] using hw
    exact hnext _ hp (by simp [hc]) he.congr (by simp) (by simpa using hn)
  · have hn : s.hidden.waitLeft = none := by simpa [hs] using hw
    exact hnext _ hp (by simp [hs]) he.congr (by simp) (by simpa using hn)
  · have hpo := (hpins.resolve_left (by simp [hd])).resolve_left (by simp [hd])
    exact hnext _ hp (by simp [hd]) he.congr (by simpa using hpo) (by simp)
  · have hpo := (hpins.resolve_left (by simp [hr])).resolve_left (by simp [hr])
    rw [hp]
    exact State.Steady.inv_ready { he with } rfl hpo rfl

/-- A tick inside a command keeps the invariant. -/
theorem performTick_inv {s : State} {c : Instr} {k : Nat} {m : MicroStep} (h : s.Inv) (hq : s.seq = .exec c k)
    (hm : currentMicro c k s = some m) : (performTick m s).Inv := by
  cases hp : m.prim with
  | wait d =>
    obtain ⟨hl, he, -, hpins⟩ := h.at_micro hq hm
    have hpo := (hpins.resolve_left (by simp [hp])).resolve_left (by simp [hp])
    have hlast := perform_inv h hq hm
    simp only [perform, performTick, hp, Flow.pause] at hlast ⊢
    split
    · exact hlast
    · have hm' : currentMicro c k (enterMicro m s) = some m :=
        (currentMicro_congr c k (enterMicro_cfg m s) (enterMicro_sample m s)).trans hm
      exact State.Steady.inv_exec { he with } ((enterMicro_seq m s).trans hq) hpo
        (by simpa using hl) (Option.isSome_of_eq_some hm') fun _ => ⟨m, d, hm', hp⟩
  | _ => simpa [performTick, hp] using h

/-! ### Fault entry, reset and the prologue -/

/-- The host's moves do not bear on the invariant. -/
theorem State.Inv.withMoves {s : State} (h : s.Inv) (ms : List Move) : (s.withMoves ms).Inv :=
  ⟨h.dirMask, h.pins, h.status, h.position, h.counters, h.partialWord⟩

/-- A response given does not bear on the invariant. -/
theorem State.Inv.respond {s : State} (h : s.Inv) (r : Response) : (s.respond r).Inv :=
  ⟨h.dirMask, h.pins, h.status, h.position, h.counters, h.partialWord⟩

/-- The pins once a fault's cleanup commit is behind. -/
theorem faultCleanup_pinsOut {e : FaultCode} {s : State} (h : s.dirset = true) :
    (faultCleanup e s).pinsOut = .driven 0#6 ∨ (faultCleanup e s).pinsOut = .unknown := by
  rcases faultCleanup_cases e s with ⟨hd, -⟩ | ⟨-, -, hc⟩ | ⟨-, -, hc⟩
  · simp [h] at hd
  · exact .inl (by simp [hc])
  · exact .inr (by simp [hc])

/-- A micro-step of fault entry keeps the invariant. -/
theorem faultMicro_inv {s : State} {e : FaultCode} {cleaned : Bool} (h : s.Inv)
    (hq : s.seq = .faulting e cleaned) : (faultMicro e cleaned s).Inv := by
  obtain ⟨hdir, hpins, hstatus, hpos, hcnt, hrx⟩ := h
  cases cleaned with
  | true =>
    rw [statusAgrees, hq] at hstatus
    rw [positionValid, hq] at hpos
    obtain ⟨hds, hh⟩ := hpos
    have hp : s.out = 0#6 ∧ (s.pinsOut = .driven 0#6 ∨ s.pinsOut = .unknown) := by
      simpa [pinsAgree, hds, hq] using hpins
    exact ⟨hdir, by simpa [pinsAgree, faultMicro, faultRespond, hds] using hp, ⟨rfl, e, hstatus.2⟩,
      hh, hcnt, hrx⟩
  | false =>
    rw [statusAgrees, hq] at hstatus
    cases hds : s.dirset with
    | true =>
      rw [show faultMicro e false s = { faultCleanup e s with seq := .faulting e true } by simp [faultMicro, hds]]
      exact ⟨by simpa using hdir, by simpa [pinsAgree, hds] using faultCleanup_pinsOut hds,
        by simpa [statusAgrees] using hstatus.1, by simp [positionValid, hds],
        by simpa using hcnt, by simpa using hrx⟩
    | false =>
      have hp : s.out = 0#6 ∧ s.pinsOut = .undriven := by simpa [pinsAgree, hds] using hpins
      rw [show faultMicro e false s = takeFault e s by simp [faultMicro, hds]]
      have ht : (takeFault e s).pinsOut = s.pinsOut := by
        rw [takeFault, faultCleanup_unconfigured hds]; rfl
      exact ⟨by simp [hds], by simp [pinsAgree, hds, ht, hp], by simp [statusAgrees], by simp [positionValid],
        by simpa using hcnt, by simpa using hrx⟩

/-- A reset establishes the invariant. -/
theorem applyReset_inv (s : State) : (applyReset s).Inv where
  dirMask h := by simp at h
  pins := by simp [pinsAgree]
  status := by simp [statusAgrees]
  position := by simp [positionValid]
  counters := ⟨fun _ _ => Nat.zero_le _, fun _ _ => Nat.zero_le _⟩
  partialWord := Nat.zero_le _

/-- A fault raised between commands. -/
theorem raise_inv {s : State} (h : s.Inv) (hq : s.seq = .ready) (e : FaultCode) : (s.raise e).Inv where
  dirMask := h.dirMask
  pins := by
    have hp := h.pins
    cases hd : s.dirset with
    | true =>
      have : s.pinsOut = .driven s.out := by simpa [pinsAgree, hq, hd] using hp
      simp [pinsAgree, hd, this]
    | false => simpa [pinsAgree, hd] using hp
  status := by simpa [statusAgrees, hq] using h.status
  position := trivial
  counters := h.counters
  partialWord := h.partialWord

/-- A command whose checks pass stands before its first micro-step. -/
theorem start_inv {s : State} {c : Instr} (h : s.Inv) (hq : s.seq = .ready)
    (hc : (planOf s.cfg c).check s.dirset = none) : (s.start c).Inv := by
  have hl := operandsLegal_of_check hc
  refine ⟨h.dirMask, ?_, by simpa [statusAgrees, hq] using h.status, ⟨hl, ?_, ?_, by simp [Hidden.idle]⟩,
    h.counters, h.partialWord⟩
  · have hp := h.pins
    rw [pinsAgree, hq] at hp
    exact hp
  · have hs := script_planOf hl (s.start c).sampled
    rw [currentMicro, Plan.micro?, State.start_cfg]
    cases hm : (planOf s.cfg c).head ++ (planOf s.cfg c).tail (s.start c).sampled with
    | nil => rw [hm] at hs; cases hs
    | cons m ms => rfl
  · cases hd : s.dirset with
    | true => exact .inl hd
    | false => exact .inr ⟨eq_setdir_of_check (hd ▸ hc), rfl⟩

/-- Accepting a word keeps the invariant. -/
theorem acceptPaused_inv {s : State} (h : s.Inv) (hq : s.seq = .ready ∨ s.seq = .halt) (w : Word) :
    (acceptPaused w s).Inv := by
  unfold acceptPaused
  split
  · exact h.respond _
  · next hh =>
    have hr : s.seq = .ready := by
      refine hq.resolve_right fun hq => hh ?_
      have hstatus := h.status
      rw [statusAgrees, hq] at hstatus
      exact hstatus.1
    split
    · exact raise_inv h hr _
    · split
      · exact raise_inv h hr _
      · next hc => exact start_inv h hr hc

/-! ### Steps -/

/-- A run of micro-steps keeps the invariant. -/
theorem MicroRun.inv {n : Nat} {s t : State} (hr : MicroRun n s t) (h : s.Inv) : t.Inv := by
  induction hr with
  | idle _ => exact h
  | micro hq hm _ ih => exact ih (perform_inv h hq hm)
  | fault hq _ ih => exact ih (faultMicro_inv h hq)

/-- Executing an accepted word to its response keeps the invariant. -/
theorem acceptWord_inv {s t : State} {w : Word} (h : s.Inv) (hq : s.seq = .ready ∨ s.seq = .halt)
    (ht : (acceptWord w s).outcome = .next t) : t.Inv := by
  obtain ⟨u, hu, hr⟩ := acceptWord_microRun w hq
  obtain rfl : u = t := Host.Outcome.next.inj (hu.symm.trans ht)
  exact hr.inv (acceptPaused_inv h hq w)

/-- A byte of a byte transport keeps the invariant: the fourth one leaves no partial word. -/
theorem acceptByte_inv {s t : State} {b : Byte} (h : s.Inv) (hq : s.seq = .ready ∨ s.seq = .halt)
    (ht : (acceptByte b s).outcome = .next t) : t.Inv := by
  have hrx : ∀ bs : List Byte, bs.length ≤ 3 → State.Inv { s with rx := bs } := fun bs hb =>
    ⟨h.dirMask, h.pins, h.status, h.position, h.counters, hb⟩
  have hlen : (s.rx ++ [b]).length ≤ 4 := by
    rw [List.length_append]
    exact Nat.add_le_add_right h.partialWord 1
  unfold acceptByte at ht
  split at ht
  · next op a b' c rest hs =>
    rw [hs] at hlen
    exact acceptWord_inv (hrx rest (by simp at hlen; omega)) hq ht
  all_goals
    cases ht
    exact hrx _ (by simp)

/-- A step between commands keeps the invariant. -/
theorem actIdle_inv {s t : State} (h : s.Inv) (hq : s.seq = .ready ∨ s.seq = .halt)
    (ht : (actIdle s).outcome = .next t) : t.Inv := by
  unfold actIdle at ht
  split at ht
  · cases ht; exact h
  · next w ms _ => exact acceptWord_inv (h.withMoves ms) hq ht
  · next w ms _ => cases ht; exact acceptPaused_inv (h.withMoves ms) hq w
  · next b ms _ => exact acceptByte_inv (h.withMoves ms) hq ht
  · next ms _ => cases ht; exact h.withMoves ms
  · next ms _ => cases ht; exact h.withMoves ms
  · cases ht; exact applyReset_inv _

/-- A micro-step inside a command keeps the invariant. -/
theorem microStep_inv {s t : State} {c : Instr} {k : Nat} (h : s.Inv) (hq : s.seq = .exec c k)
    (ht : microStep c k s = .next t) : t.Inv := by
  cases hm : currentMicro c k s with
  | none => simp [microStep, hm] at ht
  | some m =>
    obtain rfl : (perform m s).pause = t := by simpa [microStep, hm] using ht
    exact perform_inv h hq hm

/-- A tick move inside a command keeps the invariant. -/
theorem microTick_inv {s t : State} {c : Instr} {k : Nat} (h : s.Inv) (hq : s.seq = .exec c k)
    (ht : microTick c k s = .next t) : t.Inv := by
  cases hm : currentMicro c k s with
  | none => simp [microTick, hm] at ht
  | some m =>
    obtain rfl : performTick m s = t := by simpa [microTick, hm] using ht
    exact performTick_inv h hq hm

/-- A step inside a command keeps the invariant. -/
theorem actExec_inv {s t : State} {c : Instr} {k : Nat} (h : s.Inv) (hq : s.seq = .exec c k)
    (ht : (actExec c k s).outcome = .next t) : t.Inv := by
  unfold actExec at ht
  split at ht
  · exact microStep_inv h hq ht
  · exact microStep_inv h hq ht
  · exact microStep_inv h hq ht
  · exact microStep_inv h hq ht
  · next ms _ => exact microStep_inv (h.withMoves ms) hq ht
  · next ms _ => exact microTick_inv (h.withMoves ms) hq ht
  · cases ht; exact applyReset_inv _

/-- A step inside fault entry keeps the invariant. -/
theorem actFaulting_inv {s t : State} {e : FaultCode} {cleaned : Bool} (h : s.Inv)
    (hq : s.seq = .faulting e cleaned) (ht : (actFaulting e cleaned s).outcome = .next t) : t.Inv := by
  unfold actFaulting at ht
  split at ht <;> cases ht
  · exact faultMicro_inv h hq
  · exact faultMicro_inv h hq
  · exact faultMicro_inv h hq
  · exact faultMicro_inv h hq
  · next ms _ => exact faultMicro_inv (h.withMoves ms) hq
  · next ms _ => exact h.withMoves ms
  · exact applyReset_inv _

/-- Settles O56, position by position; a word executed whole is a run of micro-steps. -/
theorem stepKeepsInvariant : Obligations.StepKeepsInvariant := by
  intro s t h ht
  rw [step_eq, act] at ht
  split at ht
  · next hq => exact actIdle_inv h (.inl hq) ht
  · next hq => exact actIdle_inv h (.inr hq) ht
  · next hq => exact actExec_inv h hq ht
  · next hq => exact actFaulting_inv h hq ht

end Sys2Proof.Machine
end

section
/-! SUPPORT. The frame of a command (10_state R20, R35): what its micro-steps never change, and what they only
add to. -/

namespace Sys2Proof.Machine

/-! ### Register updates -/

@[simp] theorem enterMicro_moves (m : MicroStep) (s : State) : (enterMicro m s).moves = s.moves :=
  (congrArg State.moves (enterMicro_frame m s) :)
@[simp] theorem enterMicro_env (m : MicroStep) (s : State) : (enterMicro m s).env = s.env :=
  (congrArg State.env (enterMicro_frame m s) :)
@[simp] theorem enterMicro_draws (m : MicroStep) (s : State) : (enterMicro m s).draws = s.draws :=
  (congrArg State.draws (enterMicro_frame m s) :)
@[simp] theorem enterMicro_trace (m : MicroStep) (s : State) : (enterMicro m s).trace = s.trace :=
  (congrArg State.trace (enterMicro_frame m s) :)
@[simp] theorem enterMicro_responses (m : MicroStep) (s : State) : (enterMicro m s).responses = s.responses :=
  (congrArg State.responses (enterMicro_frame m s) :)

/-! ### Later states of a command -/

/-- `t` may come after `s` inside one command: the parameters of the step stay, the observation only grows, and
the answers used are taken off the front of their list. -/
structure State.Extends (s t : State) : Prop where
  cfg : t.cfg = s.cfg := by simp
  moves : t.moves = s.moves := by simp
  rx : t.rx = s.rx := by simp
  ticks : s.ticks ≤ t.ticks := by simp
  trace : s.trace <+: t.trace := by simp
  responses : s.responses <+: t.responses := by simp
  exchanges : ∃ n, t.draws = s.draws + n ∧ t.env = s.env.drop n := by exact ⟨0, by simp, by simp⟩

theorem State.Extends.trans {s t u : State} (h : s.Extends t) (h' : t.Extends u) : s.Extends u where
  cfg := h'.cfg.trans h.cfg
  moves := h'.moves.trans h.moves
  rx := h'.rx.trans h.rx
  ticks := h.ticks.trans h'.ticks
  trace := h.trace.trans h'.trace
  responses := h.responses.trans h'.responses
  exchanges := by
    obtain ⟨m, hd, he⟩ := h.exchanges
    obtain ⟨n, hd', he'⟩ := h'.exchanges
    exact ⟨m + n, by omega, by rw [he', he, List.drop_drop]⟩

theorem enterMicro_extends (m : MicroStep) (s : State) : s.Extends (enterMicro m s) := {}

theorem committed_extends (v : Latch) (s : State) : s.Extends (s.committed v) where
  exchanges := ⟨1, rfl, rfl⟩

theorem exchangeLost_extends (s : State) : s.Extends s.exchangeLost where
  exchanges := ⟨1, rfl, rfl⟩

theorem sampledOnce_extends (s : State) (h : Hidden) : s.Extends { s.sampledOnce with hidden := h } where
  exchanges := ⟨1, rfl, rfl⟩

theorem advance_extends (s : State) : s.Extends s.advance := {}

theorem endWait_extends (n : Nat) (s : State) : s.Extends (s.endWait n) := {}

theorem respond_extends (r : Response) (s : State) : s.Extends (s.respond r) := {}

theorem finish_extends (r : Report) (s : State) : s.Extends (finish r s) :=
  .trans (t := { s with seq := .ready, hidden := .idle }) {} (respond_extends _ _)

theorem raise_extends (e : FaultCode) (s : State) : s.Extends (s.raise e) := {}

theorem faultRespond_extends (e : FaultCode) (s : State) : s.Extends (faultRespond e s) :=
  .trans (t := { s with halted := true, seq := .halt }) {} (respond_extends _ _)

theorem enterFault_extends (e : FaultCode) (s : State) : s.Extends (s.enterFault e) := {}

theorem faultCleanup_extends (e : FaultCode) (s : State) : s.Extends (faultCleanup e s) := by
  rcases faultCleanup_cases e s with ⟨-, h⟩ | ⟨-, -, h⟩ | ⟨-, -, h⟩ <;> rw [h]
  · exact enterFault_extends e s
  · exact (enterFault_extends e s).trans (committed_extends _ _)
  · exact (enterFault_extends e s).trans (exchangeLost_extends _)

theorem takeFault_extends (e : FaultCode) (s : State) : s.Extends (takeFault e s) :=
  (faultCleanup_extends e s).trans (faultRespond_extends e _)

/-- A micro-step inside a command, a fault it raises included. -/
theorem perform_extends (m : MicroStep) (s : State) : s.Extends (perform m s).pause := by
  refine (enterMicro_extends m s).trans ?_
  rcases perform_cases m s with ⟨-, h⟩ | ⟨-, h⟩ | ⟨-, p, h⟩ | ⟨d, -, h⟩ | ⟨r, -, h⟩ <;> rw [h]
  · exact (exchangeLost_extends _).trans (raise_extends _ _)
  · exact (committed_extends _ _).trans (advance_extends _)
  · exact (sampledOnce_extends _ _).trans (advance_extends _)
  · exact endWait_extends _ _
  · exact finish_extends r _

/-- A micro-step of fault entry. -/
theorem faultMicro_extends (e : FaultCode) (cleaned : Bool) (s : State) : s.Extends (faultMicro e cleaned s) := by
  unfold faultMicro
  split
  · exact faultRespond_extends e s
  · split
    · exact (faultCleanup_extends e s).trans {}
    · exact takeFault_extends e s

theorem microRun_extends {n : Nat} {s t : State} (h : MicroRun n s t) : s.Extends t := by
  induction h with
  | idle _ => exact {}
  | micro _ _ _ ih => exact (perform_extends _ _).trans ih
  | fault _ _ ih => exact (faultMicro_extends _ _ _).trans ih

/-! ### Commands -/

/-- The three ways a command goes; one whose checks pass is a run of micro-steps. -/
theorem exec_cases (i : Instr) (s : State) :
    (s.halted = true ∧ exec i s = .next (refuseHalted s))
      ∨ (s.halted = false ∧ ∃ e, exec i s = .next (takeFault e s))
      ∨ (s.halted = false ∧ ∃ t, exec i s = .next t ∧ MicroRun 57 (s.start i) t) := by
  rw [exec_eq_runCommand]
  rcases runCommand_cases i (planOf s.cfg i) s with h | ⟨hh, e, -, h⟩ | ⟨hh, hc, h⟩
  · exact .inl h
  · exact .inr (.inl ⟨hh, e, h⟩)
  · exact .inr (.inr ⟨hh, _, h, microRun_runPlan (operandsLegal_of_check hc) rfl⟩)

theorem exec_extends {i : Instr} {s t : State} (h : exec i s = .next t) : s.Extends t := by
  rcases exec_cases i s with ⟨-, hx⟩ | ⟨-, e, hx⟩ | ⟨-, u, hx, hr⟩ <;>
    obtain rfl := Host.Outcome.next.inj (hx.symm.trans h)
  · exact respond_extends _ s
  · exact takeFault_extends e s
  · exact State.Extends.trans (t := s.start i) {} (microRun_extends hr)

/-- Settles O48: every micro-step of a command extends the state it starts from. -/
theorem commandFrame : Obligations.CommandFrame := by
  intro i s t h
  obtain ⟨hcfg, hmoves, hrx, hticks, ⟨es, htrace⟩, ⟨rs, hresp⟩, hx⟩ := exec_extends h
  exact ⟨hcfg, hmoves, hrx, hticks, ⟨es, htrace.symm⟩, ⟨rs, hresp.symm⟩, hx⟩

end Sys2Proof.Machine
end

section
/-! SUPPORT. How a command ends: with its one response, which reports what 10_state R32 lists for it. -/

namespace Sys2Proof.Machine

/-! ### What a command reports -/

/-- What a command reports when it ends without fault (10_state R32). -/
def reportOf : Instr → Report
  | .read => .port
  | .sense => .sense
  | .navtick => .sense
  | .contick => .console
  | .contickKey _ => .console
  | .setdir _ => .plain
  | .write _ _ => .plain
  | .set _ => .plain
  | .clr _ => .plain
  | .tgl _ => .plain
  | .bridge _ _ => .plain
  | .manv _ => .plain
  | .zeroall => .plain

/-- A micro-step that gives no other report than `r`. -/
def MicroStep.reports (r : Report) (m : MicroStep) : Bool :=
  match m.prim with
  | .respond r' => r' == r
  | .commit => true
  | .sample => true
  | .wait _ => true

theorem planOf_reports (cfg : Config) (c : Instr) (smp : Sensors) :
    ((planOf cfg c).head ++ (planOf cfg c).tail smp).all (MicroStep.reports (reportOf c)) = true := by
  cases c with
  | bridge a b =>
    simp only [planOf, bridgePlan, straightPlan, List.append_nil]
    cases pairOfCode a <;> cases bridgeCommandOfCode b <;> rfl
  | navtick =>
    simp only [planOf, navtickPlan, navActions]
    split <;> rfl
  | contickKey key =>
    simp only [planOf, contickKeyPlan]
    cases dispatchKey cfg.keymap key <;> rfl
  | _ => rfl

/-- The response of a command is the one it reports. -/
theorem eq_reportOf {c : Instr} {k : Nat} {s : State} {m : MicroStep} {r : Report}
    (hm : currentMicro c k s = some m) (hr : m.prim = .respond r) : r = reportOf c := by
  have h := List.all_eq_true.mp (planOf_reports s.cfg c s.sampled) m (List.mem_of_getElem? hm)
  simpa [MicroStep.reports, hr] using h

@[simp] theorem okResponse_status (r : Report) (s : State) : (okResponse r s).status = 0#4 := by cases r <;> rfl

@[simp] theorem okResponse_err (r : Report) (s : State) : (okResponse r s).err = s.err := by cases r <;> rfl

/-- The fields a command does not report are 0, and a console cycle reports the counters. -/
theorem okResponse_reportOf (i : Instr) (s : State) :
    (i ≠ .read → (okResponse (reportOf i) s).data = 0#8)
      ∧ ((i ≠ .sense ∧ i ≠ .navtick ∧ i ≠ .contick ∧ ∀ key, i ≠ .contickKey key) →
          (okResponse (reportOf i) s).sense = 0#2)
      ∧ ((i ≠ .contick ∧ ∀ key, i ≠ .contickKey key) →
          (okResponse (reportOf i) s).cnt6 = 0 ∧ (okResponse (reportOf i) s).cnt7 = 0
            ∧ (okResponse (reportOf i) s).quit = false)
      ∧ ((i = .contick ∨ ∃ key, i = .contickKey key) →
          (okResponse (reportOf i) s).cnt6 = s.cnt6 ∧ (okResponse (reportOf i) s).cnt7 = s.cnt7) := by
  cases i <;> simp [reportOf, okResponse, plainResponse]

/-! ### The states a command goes through -/

/-- `u` is a state that command `c`, accepted at `s`, goes through or ends in. -/
def Underway (c : Instr) (s u : State) : Prop :=
  match u.seq with
  | .exec c' _ => c' = c ∧ u.responses = s.responses ∧ u.halted = false ∧ u.err = s.err
  | .faulting e cleaned => u.responses = s.responses ∧ (cleaned = true → u.err = e.code)
  | .ready => ∃ v, u = finish (reportOf c) v ∧ v.responses = s.responses ∧ v.halted = false ∧ v.err = s.err
  | .halt => ∃ e v, u = faultRespond e v ∧ v.responses = s.responses ∧ v.err = e.code

/-- A micro-step other than the response gives none, and leaves HALTED and ERR alone. -/
theorem perform_silent {m : MicroStep} {s : State} (hr : ∀ r, m.prim ≠ .respond r) :
    (perform m s).pause.responses = s.responses ∧ (perform m s).pause.halted = s.halted
      ∧ (perform m s).pause.err = s.err := by
  rcases perform_cases m s with ⟨-, h⟩ | ⟨-, h⟩ | ⟨-, p, h⟩ | ⟨d, -, h⟩ | ⟨r, hr', -⟩
  · simp [h, Flow.pause]
  · simp [h, Flow.pause]
  · simp [h, Flow.pause]
  · simp [h, Flow.pause]
  · exact absurd hr' (hr r)

theorem Underway.of_exec {c : Instr} {k : Nat} {s u : State} (hq : u.seq = .exec c k)
    (hresp : u.responses = s.responses) (hh : u.halted = false) (he : u.err = s.err) : Underway c s u := by
  simp only [Underway, hq]
  exact ⟨trivial, hresp, hh, he⟩

theorem perform_underway {c c' : Instr} {k : Nat} {s u : State} {m : MicroStep} (h : Underway c s u)
    (hq : u.seq = .exec c' k) (hm : currentMicro c' k u = some m) : Underway c s (perform m u).pause := by
  simp only [Underway, hq] at h
  obtain ⟨rfl, hresp, hh, he⟩ := h
  by_cases hr : ∃ r, m.prim = .respond r
  · obtain ⟨r, hr⟩ := hr
    obtain rfl := eq_reportOf hm hr
    simp only [perform, hr]
    exact ⟨enterMicro m u, rfl, by simp [hresp], by simp [hh], by simp [he]⟩
  · obtain ⟨hresp', hh', he'⟩ := perform_silent (s := u) (not_exists.mp hr)
    cases hp : perform m u with
    | raised e t =>
      rw [hp] at hresp'
      simpa [Underway, Flow.pause] using hresp'.trans hresp
    | going t =>
      rw [hp] at hresp' hh' he'
      rcases perform_going hq hp with ⟨r, hr', -⟩ | ⟨-, hqt, -⟩
      · exact absurd ⟨r, hr'⟩ hr
      · exact .of_exec hqt (hresp'.trans hresp) (hh'.trans hh) (he'.trans he)

theorem faultMicro_underway {c : Instr} {s u : State} {e : FaultCode} {cleaned : Bool}
    (h : Underway c s u) (hq : u.seq = .faulting e cleaned) : Underway c s (faultMicro e cleaned u) := by
  simp only [Underway, hq] at h
  obtain ⟨hresp, he⟩ := h
  unfold faultMicro
  split
  · next hc => exact ⟨e, u, rfl, hresp, he hc⟩
  · split
    · simp [Underway, hresp]
    · simp only [Underway, takeFault_seq]
      exact ⟨e, faultCleanup e u, rfl, by simp [hresp], by simp⟩

theorem MicroRun.underway {n : Nat} {c : Instr} {s u t : State} (hr : MicroRun n u t) (h : Underway c s u) :
    Underway c s t := by
  induction hr with
  | idle _ => exact h
  | micro hq hm _ ih => exact ih (perform_underway h hq hm)
  | fault hq _ ih => exact ih (faultMicro_underway h hq)

/-- A run of micro-steps ends between commands. -/
theorem MicroRun.ends {n : Nat} {s t : State} (h : MicroRun n s t) : t.seq = .ready ∨ t.seq = .halt := by
  induction h with
  | idle hq => exact hq
  | micro _ _ _ ih => exact ih
  | fault _ _ ih => exact ih

/-- A command executed while the controller is not halted ends with its own response or with that of a fault. -/
theorem exec_ends (i : Instr) {s : State} (hh : s.halted = false) :
    (∃ v, exec i s = .next (finish (reportOf i) v) ∧ v.responses = s.responses ∧ v.halted = false ∧ v.err = s.err)
      ∨ ∃ e v, exec i s = .next (faultRespond e v) ∧ v.responses = s.responses ∧ v.err = e.code := by
  rcases exec_cases i s with ⟨hh', -⟩ | ⟨-, e, hx⟩ | ⟨-, t, hx, hr⟩
  · simp [hh] at hh'
  · exact .inr ⟨e, faultCleanup e s, hx, by simp, by simp⟩
  · have hu : Underway i s t := hr.underway ⟨rfl, rfl, hh, rfl⟩
    rcases hr.ends with hq | hq
    · simp only [Underway, hq] at hu
      obtain ⟨v, rfl, hv⟩ := hu
      exact .inl ⟨v, hx, hv⟩
    · simp only [Underway, hq] at hu
      obtain ⟨e, v, rfl, hv⟩ := hu
      exact .inr ⟨e, v, hx, hv⟩

/-- Settles O47: a refusal while halted, else the end that the command's micro-steps come to. -/
theorem oneResponsePerCommand : Obligations.OneResponsePerCommand := by
  intro i s
  cases hh : s.halted with
  | true =>
    have hx : exec i s = .next (refuseHalted s) := by rw [exec_eq_runCommand, runCommand_halted hh]
    exact ⟨_, _, hx, rfl, rfl, .inl ⟨rfl, rfl⟩⟩
  | false =>
    rcases exec_ends i hh with ⟨v, hx, hresp, hv, he⟩ | ⟨e, v, hx, hresp, he⟩
    · obtain ⟨hdata, hsense, hcounters, hconsole⟩ := okResponse_reportOf i v
      exact ⟨_, okResponse (reportOf i) v, hx, congrArg (· ++ _) hresp, okResponse_err _ _,
        .inr (.inr ⟨rfl, hv, okResponse_status _ _, he, rfl, rfl, hdata, hsense, hcounters, hconsole⟩)⟩
    · exact ⟨_, plainResponse e.code v.err, hx, congrArg (· ++ _) hresp, rfl,
        .inr (.inl ⟨rfl, rfl, e, by rw [he]⟩)⟩

end Sys2Proof.Machine
end

section
/-! SUPPORT. What a step can do, by position and by the host's move, and what follows for every run. -/

namespace Sys2Proof.Machine

/-! ### Words and pending moves -/

/-- A word that decodes is executed as its command (60_exceptions R219). -/
theorem acceptWord_decoded {w : Word} {i : Instr} (s : State) (hd : decode w = .ok i) :
    (acceptWord w s).outcome = exec i s := by
  cases hh : s.halted with
  | true => rw [exec_eq_runCommand, runCommand_halted hh]; simp [acceptWord, hh, Action.outcome]
  | false => simp [acceptWord, hh, hd, Action.outcome]

/-- A word that is the host's next move is accepted between commands. -/
theorem step_word {s : State} (hq : s.seq = .ready ∨ s.seq = .halt) (w : Word) (ms : List Move) :
    step (s.withMoves (.word w :: ms)) = (acceptWord w (s.withMoves ms)).outcome :=
  step_idle (s := s.withMoves (.word w :: ms)) hq

/-- Between commands an offered word is only put in front of the host's moves. -/
theorem offerWord_idle {s : State} (hq : s.seq = .ready ∨ s.seq = .halt) (w : Word) :
    s.offerWord w = s.withMoves (.word w :: s.moves) := by
  rcases hq with hq | hq <;> simp [State.offerWord, State.withMoves, hq]

theorem eq_withMoves {s : State} {ms : List Move} (h : s.moves = ms) : s = s.withMoves ms := by rw [← h]; rfl

/-- Settles O51: between commands the word is accepted, and decodes. -/
theorem stepRunsDecoded : Obligations.StepRunsDecoded := by
  refine ⟨fun s w i ms hq hm hd _ => ?_, fun s w nbits i hq hn hd => ?_⟩
  · rw [eq_withMoves hm, step_word hq]
    exact acceptWord_decoded _ hd
  · have hw : BitVec.ofNat 32 (w.toNat % 2 ^ nbits) = w := by
      rw [hn, Nat.mod_eq_of_lt w.isLt, BitVec.ofNat_toNat, BitVec.setWidth_eq]
    rw [State.withFetchWord, hw, offerWord_idle hq, step_word hq]
    exact acceptWord_decoded _ hd

/-- On the move `go` inside fault entry the next micro-step is performed. -/
theorem step_go_faulting {s : State} {e : FaultCode} {cleaned : Bool} (hq : s.seq = .faulting e cleaned)
    (ms : List Move) :
    step (s.withMoves (.go :: ms)) = .next ((faultMicro e cleaned s).withMoves ms) := by
  rw [step_eq, act, show (s.withMoves (.go :: ms)).seq = .faulting e cleaned from hq, ← faultMicro_withMoves]
  rfl

/-- Settles O58: a micro-step keeps the host's moves and the partial word, and does not look at them. -/
theorem pendingMovesWait : Obligations.PendingMovesWait := by
  constructor
  · rintro s t c k m hq hm rfl
    have hmicro : microStep c k s = .next (perform m s).pause := by rw [microStep, hm]
    have hx := perform_extends m s
    refine ⟨fun h => (step_exec hq (.inl h)).trans hmicro, fun mv ms h hb => ?_, fun ms h => ?_⟩
    · exact ⟨(step_exec hq (.inr ⟨mv, ms, h, hb⟩)).trans hmicro, hx.moves, hx.rx⟩
    · exact (congrArg step (eq_withMoves h)).trans (step_go hq hm ms)
  · rintro s t e cleaned hq rfl
    have hx := faultMicro_extends e cleaned s
    refine ⟨fun h => step_faulting hq (.inl h), fun mv ms h hb => ?_, fun ms h => ?_⟩
    · exact ⟨step_faulting hq (.inr ⟨mv, ms, h, hb⟩), hx.moves, hx.rx⟩
    · exact (congrArg step (eq_withMoves h)).trans (step_go_faulting hq ms)

/-! ### The invariant and progress -/

/-- Settles O55: a reset establishes the invariant, which does not look at the pin trace. -/
theorem resetMeetsInvariant : Obligations.ResetMeetsInvariant := by
  obtain ⟨hdir, hpins, hstatus, hpos, hcnt, hrx⟩ := applyReset_inv State.reset
  exact ⟨hdir, hpins, hstatus, hpos, hcnt, hrx⟩

theorem acceptWord_next (w : Word) {s : State} (hq : s.seq = .ready ∨ s.seq = .halt) :
    ∃ t, (acceptWord w s).outcome = .next t :=
  (acceptWord_microRun w hq).imp fun _ h => h.1

theorem acceptByte_next (b : Byte) {s : State} (hq : s.seq = .ready ∨ s.seq = .halt) :
    ∃ t, (acceptByte b s).outcome = .next t := by
  unfold acceptByte
  split
  · next op a b' c rest _ => exact acceptWord_next _ (s := { s with rx := rest }) hq
  all_goals exact ⟨_, rfl⟩

theorem actIdle_next {s : State} (hq : s.seq = .ready ∨ s.seq = .halt) : ∃ t, (actIdle s).outcome = .next t := by
  unfold actIdle
  split
  case h_2 w ms _ => exact acceptWord_next w (s := s.withMoves ms) hq
  case h_4 b ms _ => exact acceptByte_next b (s := s.withMoves ms) hq
  all_goals exact ⟨_, rfl⟩

/-- A command that stands before a micro-step of its own has a next state. -/
theorem actExec_next {s : State} {c : Instr} {k : Nat} {m : MicroStep} (hm : currentMicro c k s = some m) :
    ∃ t, (actExec c k s).outcome = .next t := by
  have hm' : ∀ ms, currentMicro c k { s with moves := ms } = some m := fun _ => hm
  unfold actExec
  split <;> simp [Action.outcome, microStep, microTick, hm, hm']

theorem actFaulting_next (e : FaultCode) (cleaned : Bool) (s : State) :
    ∃ t, (actFaulting e cleaned s).outcome = .next t := by
  unfold actFaulting
  split <;> exact ⟨_, rfl⟩

/-- Settles O57: the one stop of the model is a position without a micro-step, which the invariant excludes. -/
theorem invariantNeverStops : Obligations.InvariantNeverStops := by
  intro s h
  rw [step_eq, act]
  split
  · next hq => exact actIdle_next (.inl hq)
  · next hq => exact actIdle_next (.inr hq)
  · next c k hq =>
    have hpos := h.position
    rw [positionValid, hq] at hpos
    obtain ⟨-, hm, -⟩ := hpos
    obtain ⟨m, hm⟩ := Option.isSome_iff_exists.mp hm
    exact actExec_next hm
  · exact actFaulting_next _ _ _

/-! ### What a step can do -/

/-- What a step makes of `u`, the state with the host's move taken: the end state `t`. -/
inductive StepsTo (u : State) : State → Prop where
  | stay : StepsTo u u
  | reset : StepsTo u (applyReset u)
  | paused (w : Word) : u.seq = .ready ∨ u.seq = .halt → StepsTo u (acceptPaused w u)
  | word {t : State} (w : Word) : u.seq = .ready ∨ u.seq = .halt →
      (acceptWord w u).outcome = .next t → StepsTo u t
  | micro {c : Instr} {k : Nat} {m : MicroStep} : u.seq = .exec c k → currentMicro c k u = some m →
      StepsTo u (perform m u).pause
  | tick {c : Instr} {k : Nat} {m : MicroStep} : u.seq = .exec c k → currentMicro c k u = some m →
      StepsTo u (performTick m u)
  | fault {e : FaultCode} {cleaned : Bool} : u.seq = .faulting e cleaned → StepsTo u (faultMicro e cleaned u)

/-- `s` with a move of the host taken, and with it the byte it may bring. -/
def State.taking (ms : List Move) (bs : List Byte) (s : State) : State := { s with moves := ms, rx := bs }

theorem acceptByte_stepsTo {s t : State} {b : Byte} (hq : s.seq = .ready ∨ s.seq = .halt)
    (h : (acceptByte b s).outcome = .next t) :
    ∃ bs, StepsTo { s with rx := bs } t := by
  unfold acceptByte at h
  split at h
  · next op a b' c rest _ => exact ⟨rest, .word (mkWord op a b' c) hq h⟩
  all_goals
    cases h
    exact ⟨_, .stay⟩

theorem actIdle_stepsTo {s t : State} (hq : s.seq = .ready ∨ s.seq = .halt)
    (h : (actIdle s).outcome = .next t) : ∃ ms bs, StepsTo (s.taking ms bs) t := by
  unfold actIdle at h
  split at h
  · cases h; exact ⟨s.moves, s.rx, .stay⟩
  · next w ms _ => exact ⟨ms, s.rx, .word w hq h⟩
  · next w ms _ => cases h; exact ⟨ms, s.rx, .paused w hq⟩
  · next b ms _ => exact ⟨ms, acceptByte_stepsTo (s := s.withMoves ms) hq h⟩
  · next ms _ => cases h; exact ⟨ms, s.rx, .stay⟩
  · next ms _ => cases h; exact ⟨ms, s.rx, .stay⟩
  · next ms _ => cases h; exact ⟨ms, s.rx, .reset⟩

theorem microStep_stepsTo {s t : State} {c : Instr} {k : Nat} (hq : s.seq = .exec c k)
    (h : microStep c k s = .next t) : StepsTo s t := by
  unfold microStep at h
  split at h <;> cases h
  exact .micro hq ‹_›

theorem microTick_stepsTo {s t : State} {c : Instr} {k : Nat} (hq : s.seq = .exec c k)
    (h : microTick c k s = .next t) : StepsTo s t := by
  unfold microTick at h
  split at h <;> cases h
  exact .tick hq ‹_›

theorem actExec_stepsTo {s t : State} {c : Instr} {k : Nat} (hq : s.seq = .exec c k)
    (h : (actExec c k s).outcome = .next t) : ∃ ms bs, StepsTo (s.taking ms bs) t := by
  unfold actExec at h
  split at h
  · exact ⟨s.moves, s.rx, microStep_stepsTo hq h⟩
  · exact ⟨s.moves, s.rx, microStep_stepsTo hq h⟩
  · exact ⟨s.moves, s.rx, microStep_stepsTo hq h⟩
  · exact ⟨s.moves, s.rx, microStep_stepsTo hq h⟩
  · next ms _ => exact ⟨ms, s.rx, microStep_stepsTo hq h⟩
  · next ms _ => exact ⟨ms, s.rx, microTick_stepsTo hq h⟩
  · next ms _ => cases h; exact ⟨ms, s.rx, .reset⟩

theorem actFaulting_stepsTo {s t : State} {e : FaultCode} {cleaned : Bool} (hq : s.seq = .faulting e cleaned)
    (h : (actFaulting e cleaned s).outcome = .next t) : ∃ ms bs, StepsTo (s.taking ms bs) t := by
  unfold actFaulting at h
  split at h <;> cases h
  · exact ⟨s.moves, s.rx, .fault hq⟩
  · exact ⟨s.moves, s.rx, .fault hq⟩
  · exact ⟨s.moves, s.rx, .fault hq⟩
  · exact ⟨s.moves, s.rx, .fault hq⟩
  · next ms _ => exact ⟨ms, s.rx, .fault hq⟩
  · next ms _ => exact ⟨ms, s.rx, .stay⟩
  · next ms _ => exact ⟨ms, s.rx, .reset⟩

/-- Every step, whatever the position and the host's move. -/
theorem step_stepsTo {s t : State} (h : step s = .next t) : ∃ ms bs, StepsTo (s.taking ms bs) t := by
  rw [step_eq, act] at h
  split at h
  · next hq => exact actIdle_stepsTo (.inl hq) h
  · next hq => exact actIdle_stepsTo (.inr hq) h
  · next hq => exact actExec_stepsTo hq h
  · next hq => exact actFaulting_stepsTo hq h

/-! ### Runs without a fault -/

/-- From `s` to `t` only OK responses are given. -/
def State.AnswersOk (s t : State) : Prop := ∃ rs, t.responses = s.responses ++ rs ∧ ∀ r ∈ rs, r.status = 0#4

theorem State.AnswersOk.of_eq {s t : State} (h : t.responses = s.responses) : s.AnswersOk t := ⟨[], by simp [h]⟩

theorem State.AnswersOk.trans {s t u : State} (h : s.AnswersOk t) (h' : t.AnswersOk u) : s.AnswersOk u := by
  obtain ⟨rs, ht, hrs⟩ := h
  obtain ⟨rs', hu, hrs'⟩ := h'
  exact ⟨rs ++ rs', by rw [hu, ht, List.append_assoc], fun r hr => (List.mem_append.mp hr).elim (hrs r) (hrs' r)⟩

theorem finish_answersOk (r : Report) (s : State) : s.AnswersOk (finish r s) :=
  ⟨[okResponse r s], rfl, by simp⟩

theorem perform_answersOk (m : MicroStep) (s : State) : s.AnswersOk (perform m s).pause := by
  by_cases hr : ∃ r, m.prim = .respond r
  · obtain ⟨r, hr⟩ := hr
    simp only [perform, hr]
    exact .trans (.of_eq (enterMicro_responses m s)) (finish_answersOk r _)
  · exact .of_eq (perform_silent (not_exists.mp hr)).1

theorem performTick_responses (m : MicroStep) (s : State) : (performTick m s).responses = s.responses := by
  unfold performTick
  split
  · split <;> simp
  all_goals rfl

/-- A word accepted to be executed by micro-steps is not answered yet. -/
theorem acceptPaused_responses (w : Word) {s : State} (hh : s.halted = false) :
    (acceptPaused w s).responses = s.responses := by
  rw [acceptPaused, if_neg (by simp [hh])]
  split
  · rfl
  · split <;> rfl

/-- A word executed without a fault gives an OK response. -/
theorem acceptWord_answersOk {w : Word} {s t : State} (hh : s.halted = false) (ht : t.halted = false)
    (h : (acceptWord w s).outcome = .next t) : s.AnswersOk t := by
  cases hd : decode w with
  | error e =>
    obtain rfl : takeFault .illegalCommand s = t := by simpa [acceptWord, hh, hd, Action.outcome] using h
    simp at ht
  | ok i =>
    rw [acceptWord_decoded s hd] at h
    rcases exec_ends i hh with ⟨v, hx, hresp, -⟩ | ⟨e, v, hx, -⟩ <;>
      obtain rfl := Host.Outcome.next.inj (hx.symm.trans h)
    · exact .trans (.of_eq hresp) (finish_answersOk _ v)
    · cases ht

/-- A micro-step of fault entry gives a response only with the halt. -/
theorem faultMicro_responses {e : FaultCode} {cleaned : Bool} {s : State}
    (ht : (faultMicro e cleaned s).halted = false) : (faultMicro e cleaned s).responses = s.responses := by
  cases cleaned with
  | true => cases ht
  | false =>
    cases hd : s.dirset with
    | true => simp [faultMicro, hd]
    | false => simp [faultMicro, hd] at ht

/-- A step that neither starts nor ends halted gives no response but OK. -/
theorem step_answersOk {s t : State} (h : step s = .next t) (hs : s.halted = false) (ht : t.halted = false) :
    s.AnswersOk t := by
  obtain ⟨ms, bs, hst⟩ := step_stepsTo h
  refine .trans (t := s.taking ms bs) (.of_eq rfl) ?_
  have hu : (s.taking ms bs).halted = false := hs
  cases hst with
  | stay => exact .of_eq rfl
  | reset => exact .of_eq rfl
  | paused w _ => exact .of_eq (acceptPaused_responses w hu)
  | word w _ hw => exact acceptWord_answersOk hu ht hw
  | micro _ _ => exact perform_answersOk _ _
  | tick _ _ => exact .of_eq (performTick_responses _ _)
  | fault _ => exact .of_eq (faultMicro_responses ht)

theorem noFault_halted {s : State} (h : s.noFault) : s.halted = false := h 0 s rfl

theorem noFault_step {s t : State} (h : s.noFault) (hst : step s = .next t) : t.noFault :=
  fun k u hu => h (k + 1) u ((run_succ hst).trans hu)

/-- Settles O59, step by step: a run that meets `NoFault` meets it from every state on. -/
theorem noFaultRunsAnswerOk : Obligations.NoFaultRunsAnswerOk := by
  intro s hs k t h
  show s.AnswersOk t
  induction k generalizing s with
  | zero => cases h; exact .of_eq rfl
  | succ k ih =>
    obtain ⟨u, hu, hk⟩ := run_succ_next h
    have hu' : u.noFault := noFault_step hs hu
    exact (step_answersOk hu (noFault_halted hs) (noFault_halted hu')).trans (ih u hu' hk)

end Sys2Proof.Machine
end

section
/-! SUPPORT. The decoder and the encoder agree, and the rows of the opcode map (30_encoding R74) say the same. -/

namespace Sys2Proof

/-! ### Decode and encode -/

theorem wellFormed_iff (i : Instr) : i.WellFormed ↔ ∀ a, i = .manv a → a.extractLsb' 2 6 = 0#6 := by
  cases i <;> simp [Instr.WellFormed, Instr.wf]

/-- The word of a command the encoding can spell decodes to it (30_encoding R74). -/
theorem decode_encode {i : Instr} (h : i.WellFormed) : decode (encode i) = .ok i := by
  rw [wellFormed_iff] at h
  cases i with
  | manv a => simp [encode, decodeFields, h a rfl]
  | _ => simp [encode, decodeFields]

theorem eq_ofNat_of_toNat {op : Byte} {n : Nat} (h : op.toNat = n) : op = BitVec.ofNat 8 n := by
  rw [← h, BitVec.ofNat_toNat, BitVec.setWidth_eq]

/-- Four fields that decode are those of the command they decode to. -/
theorem encode_of_decodeFields {op a b c : Byte} {i : Instr} (h : decodeFields op a b c = .ok i) :
    i.WellFormed ∧ encode i = mkWord op a b c := by
  unfold decodeFields at h
  split at h
  case h_8 hop =>
    obtain ⟨ha, ⟨rfl, rfl⟩, rfl⟩ := (decodeManv_ok a b c i).mp h
    simp [wellFormed_iff, ha, encode, eq_ofNat_of_toNat hop]
  case h_11 hop =>
    rcases (decodeContick_ok a b c i).mp h with ⟨rfl, rfl, rfl⟩ | ⟨rfl, rfl, rfl, rfl⟩
    · simp [wellFormed_iff, encode, eq_ofNat_of_toNat hop]
    · simp [wellFormed_iff, encode, eq_ofNat_of_toNat hop]
  case h_13 => cases h
  all_goals
    next hop =>
    simp only [formatF0_ok, formatF1_ok, formatF2_ok] at h
    obtain ⟨hz, rfl⟩ := h
    simp [wellFormed_iff, encode, eq_ofNat_of_toNat hop, hz]

/-- Decoding inverts encoding, and ignores no bit of a word. -/
theorem decode_eq_ok_iff {w : Word} {i : Instr} : decode w = .ok i ↔ i.WellFormed ∧ w = encode i := by
  constructor
  · intro h
    rw [← mkWord_fields w, decode_mkWord] at h
    obtain ⟨hi, he⟩ := encode_of_decodeFields h
    exact ⟨hi, by rw [he, mkWord_fields]⟩
  · rintro ⟨hi, rfl⟩
    exact decode_encode hi

/-- A byte transport decodes the word that its first four bytes make (30_encoding R71). -/
theorem decodeBytes_of_decode {w : Word} {i : Instr} (h : decode w = .ok i) (rest : List Byte) :
    decodeBytes (wordBytes w ++ rest) = .ok (i, rest) := by
  simp only [wordBytes, List.cons_append, List.nil_append, decodeBytes, mkWord_fields, h]

/-- Settles O1: every format reads the operands where the encoder writes them. -/
theorem decodeEncodeRoundTrip : Obligations.DecodeEncodeRoundTrip := fun _ hi =>
  ⟨decode_encode hi, decodeBytes_of_decode (decode_encode hi)⟩

/-- Settles O2: every format demands 0 in the field bits that its commands leave unused. -/
theorem encodeInvertsDecode : Obligations.EncodeInvertsDecode := fun _ _ h =>
  (decode_eq_ok_iff.mp h).imp_right Eq.symm

/-! ### The rows of the opcode map -/

theorem word_eq_iff {w v : Word} :
    w = v ↔ wordOp w = wordOp v ∧ wordA w = wordA v ∧ wordB w = wordB v ∧ wordC w = wordC v := by
  constructor
  · rintro rfl
    exact ⟨rfl, rfl, rfl, rfl⟩
  · rintro ⟨hop, ha, hb, hc⟩
    rw [← mkWord_fields w, ← mkWord_fields v, hop, ha, hb, hc]

/-- A word selects a row when each of its four fields agrees with the row's under the mask. -/
theorem selects_iff {r : OpcodeRow} {w : Word} :
    r.selects w = true ↔
      wordOp w &&& wordOp r.mask = wordOp r.matchBits ∧ wordA w &&& wordA r.mask = wordA r.matchBits
        ∧ wordB w &&& wordB r.mask = wordB r.matchBits ∧ wordC w &&& wordC r.mask = wordC r.matchBits := by
  rw [OpcodeRow.selects, beq_iff_eq, word_eq_iff]
  simp only [wordOp, wordA, wordB, wordC, BitVec.extractLsb'_and]

/-- MANV's mask covers the bits of `A` above its maneuver code (30_encoding R77). -/
theorem and_0xFC_eq_zero (x : Byte) : x &&& 0xFC#8 = 0#8 ↔ x.extractLsb' 2 6 = 0#6 := by
  revert x; decide

/-- The command of the same row with the fields `a` and `b` for its operands. -/
def Instr.withFields (a b : Byte) : Instr → Instr
  | .setdir _ => .setdir a
  | .write _ _ => .write a b
  | .read => .read
  | .set _ => .set a
  | .clr _ => .clr a
  | .tgl _ => .tgl a
  | .bridge _ _ => .bridge a b
  | .manv _ => .manv a
  | .sense => .sense
  | .navtick => .navtick
  | .contick => .contick
  | .contickKey _ => .contickKey a
  | .zeroall => .zeroall

theorem withFields_row (i : Instr) (a b : Byte) : (i.withFields a b).row = i.row := by cases i <;> rfl

theorem withFields_encode (i : Instr) : i.withFields (wordA (encode i)) (wordB (encode i)) = i := by
  cases i <;> simp [Instr.withFields, encode]

/-- The words that select a row are those that decode to a command of it: the masks cover what the formats demand. -/
theorem row_selects_mkWord (i : Instr) (op a b c : Byte) :
    i.row.selects (mkWord op a b c) = true ↔ decode (mkWord op a b c) = .ok (i.withFields a b) := by
  have and_0xFF (x : Byte) : x &&& 0xFF#8 = x := BitVec.and_allOnes
  rw [selects_iff, decode_eq_ok_iff, wellFormed_iff, word_eq_iff]
  simp only [wordOp_mkWord, wordA_mkWord, wordB_mkWord, wordC_mkWord]
  cases i <;>
    simp only [Instr.row, Instr.withFields, encode, wordOp_mkWord, wordA_mkWord, wordB_mkWord, wordC_mkWord] <;>
    simp only [wordOp, wordA, wordB, wordC, BitVec.reduceExtractLsb', and_0xFF, BitVec.and_zero, and_0xFC_eq_zero]
  case manv => simp; tauto
  all_goals simp

theorem row_selects_iff (i : Instr) (w : Word) :
    i.row.selects w = true ↔ decode w = .ok (i.withFields (wordA w) (wordB w)) := by
  have h := row_selects_mkWord i (wordOp w) (wordA w) (wordB w) (wordC w)
  rwa [mkWord_fields] at h

theorem mem_opcodeRows {r : OpcodeRow} (h : r ∈ opcodeRows) : ∃ i : Instr, r = i.row := by
  simp only [opcodeRows, List.mem_cons, List.not_mem_nil, or_false] at h
  rcases h with h | h | h | h | h | h | h | h | h | h | h | h | h <;> exact ⟨_, h⟩

/-- Within the opcode map, the row of a command is its own. -/
theorem filter_opcodeRows_eq_row (i : Instr) : opcodeRows.filter (fun r => r == i.row) = [i.row] := by
  cases i <;> rfl

/-- Settles O3: a row that a word selects is that of the command the word decodes to. -/
theorem everyWordOneRowOrIllegal : Obligations.EveryWordOneRowOrIllegal := by
  intro w
  cases hd : decode w with
  | ok i =>
    refine .inl ⟨i, rfl, ?_⟩
    rw [← filter_opcodeRows_eq_row i]
    refine List.filter_congr fun r hr => Bool.eq_iff_iff.mpr ?_
    rw [beq_iff_eq]
    obtain ⟨j, rfl⟩ := mem_opcodeRows hr
    constructor
    · intro h
      rw [row_selects_iff, hd] at h
      rw [Except.ok.inj h, withFields_row]
    · intro h
      obtain ⟨-, rfl⟩ := decode_eq_ok_iff.mp hd
      rw [h, row_selects_iff, withFields_encode, hd]
  | error e =>
    refine .inr ⟨⟨e, rfl⟩, List.filter_eq_nil_iff.mpr fun r hr h => ?_⟩
    obtain ⟨j, rfl⟩ := mem_opcodeRows hr
    rw [row_selects_iff, hd] at h
    cases h

/-! ### Illegal words -/

theorem exists_error_iff {x : Except DecodeError Instr} : (∃ e, x = .error e) ↔ ∀ i, x ≠ .ok i := by
  cases x <;> simp

/-- CONTICK demands `B` = 1, or `A` = `B` = 0 (30_encoding R79). -/
theorem decodeContick_error_iff (a b c : Byte) :
    (∃ e, decodeContick a b c = .error e) ↔ c ≠ 0#8 ∨ 2 ≤ b.toNat ∨ (b = 0#8 ∧ a ≠ 0#8) := by
  have hb : 2 ≤ b.toNat ↔ b ≠ 0#8 ∧ b ≠ 1#8 := by bv_omega
  by_cases h0 : b = 0#8
  · simp [exists_error_iff, h0]
    tauto
  · simp [exists_error_iff, hb, h0]
    tauto

/-- The fields that are illegal (30_encoding R79), opcode by opcode. -/
theorem decodeFields_error_iff (op a b c : Byte) :
    (∃ e, decodeFields op a b c = .error e) ↔
      op.toNat = 0 ∨ 0x0D ≤ op.toNat ∨ c ≠ 0#8
        ∨ (op.toNat ∈ [0x01, 0x04, 0x05, 0x06, 0x08] ∧ b ≠ 0#8)
        ∨ (op.toNat ∈ [0x03, 0x09, 0x0A, 0x0C] ∧ (a ≠ 0#8 ∨ b ≠ 0#8))
        ∨ (op.toNat = 0x08 ∧ a.extractLsb' 2 6 ≠ 0#6)
        ∨ (op.toNat = 0x0B ∧ (2 ≤ b.toNat ∨ (b = 0#8 ∧ a ≠ 0#8))) := by
  unfold decodeFields
  split
  case h_11 hop => simp [hop, decodeContick_error_iff]
  case h_13 =>
    simp only [imp_false] at *
    have hop : op.toNat = 0 ∨ 0x0D ≤ op.toNat := by omega
    exact iff_of_true ⟨_, rfl⟩ (or_assoc.mp (.inl hop))
  case h_2 hop => simp [hop, exists_error_iff]
  case h_7 hop => simp [hop, exists_error_iff]
  all_goals
    next hop =>
    simp [hop, exists_error_iff]
    tauto

end Sys2Proof

namespace Sys2Proof.Machine

/-- An illegal word faults (60_exceptions R219). -/
theorem acceptWord_illegal {w : Word} {e : DecodeError} {s : State} (hh : s.halted = false)
    (hd : decode w = .error e) : (acceptWord w s).outcome = .next (takeFault .illegalCommand s) := by
  simp [acceptWord, hh, hd, Action.outcome]

/-- Settles O4: R79's list is what the formats of the opcodes refuse. -/
theorem illegalWordsFault : Obligations.IllegalWordsFault := by
  refine ⟨fun w => decodeFields_error_iff _ _ _ _, fun s w ms e hq hh hm hd => ?_⟩
  rw [eq_withMoves hm, step_word (.inl hq)]
  exact acceptWord_illegal hh hd

end Sys2Proof.Machine
end

section
/-! SUPPORT. Operand codes and tables, operands out of range, and the commands that stand for each other
(30_encoding R75 to R84). -/

namespace Sys2Proof.Machine

/-! ### Operand codes -/

theorem pairOfCode_eq (a : Byte) : pairOfCode a =
    if a = 0#8 then some .a else if a = 1#8 then some .b else if a = 2#8 then some .c else none := by
  unfold pairOfCode
  simp only [BitVec.toNat_eq]
  split <;> simp_all

theorem bridgeCommandOfCode_eq (b : Byte) : bridgeCommandOfCode b =
    if b = 0#8 then some .left else if b = 1#8 then some .right
    else if b = 2#8 then some .brake else if b = 3#8 then some .coast else none := by
  unfold bridgeCommandOfCode
  simp only [BitVec.toNat_eq]
  split <;> simp_all

/-- Settles O9: the codes by the two lemmas above, the tables by their definitions. -/
theorem operandTables : Obligations.OperandTables := by
  refine ⟨pairOfCode_eq, bridgeCommandOfCode_eq, ?_⟩
  decide

/-! ### Operands out of range -/

theorem channelCheck_of_ge {a : Byte} (h : 6 ≤ a.toNat) : channelCheck a = some .invalidChannel := if_pos h

theorem pairOfCode_of_ge {a : Byte} (h : 3 ≤ a.toNat) : pairOfCode a = none := by
  rw [pairOfCode_eq, if_neg, if_neg, if_neg] <;> bv_omega

theorem bridgeCommandOfCode_of_ge {b : Byte} (h : 4 ≤ b.toNat) : bridgeCommandOfCode b = none := by
  rw [bridgeCommandOfCode_eq, if_neg, if_neg, if_neg, if_neg] <;> bv_omega

theorem bridgeCheck_of_ge {a b : Byte} (h : 3 ≤ a.toNat ∨ 4 ≤ b.toNat) :
    bridgeCheck a b = some .invalidBridgeArgs := by
  rcases h with h | h
  · simp [bridgeCheck, pairOfCode_of_ge h]
  · simp [bridgeCheck, bridgeCommandOfCode_of_ge h]

/-- A configured command whose operands are out of range faults before it changes anything (30_encoding R80). -/
theorem exec_operandFault {i : Instr} {s : State} {e : FaultCode} (h : s.running)
    (hc : (planOf s.cfg i).check true = some e) : exec i s = .next (takeFault e s) := by
  obtain ⟨hh, hd⟩ := h
  exact exec_fault hh (by rw [hd, hc])

/-- Settles O5: these operands decode, since no format looks at them, and the command's check refuses them. -/
theorem outOfRangeOperandsFault : Obligations.OutOfRangeOperandsFault := by
  refine ⟨fun s a hs ha => ⟨⟨decode_encode rfl, ?_⟩, ⟨decode_encode rfl, ?_⟩, decode_encode rfl, ?_⟩,
    fun s a b hs ha => ⟨decode_encode rfl, ?_⟩, fun s a b hs hab => ⟨decode_encode rfl, ?_⟩,
    fun s a hh hd ha => ⟨decode_encode rfl, ?_⟩⟩
  · exact exec_operandFault hs (channelCheck_of_ge ha)
  · exact exec_operandFault hs (channelCheck_of_ge ha)
  · exact exec_operandFault hs (channelCheck_of_ge ha)
  · exact exec_operandFault hs (if_pos (bne_iff_ne.mpr ha))
  · exact exec_operandFault hs (bridgeCheck_of_ge hab)
  · exact exec_fault hh (by rw [hd]; exact if_neg ha)

/-! ### Commands that stand for each other -/

/-- A command of one commit is what its check and its port write make it, whatever its name. -/
theorem runCommand_portWrite_congr (c c' : Instr) {chk chk' : Bool → Option FaultCode} {s : State}
    (h : chk s.dirset = chk' s.dirset) (mask value : Byte) :
    runCommand c (straightPlan chk [portWrite mask value, respondPlain]) s
      = runCommand c' (straightPlan chk' [portWrite mask value, respondPlain]) s := by
  have hrun : ∀ (c : Instr) (chk : Bool → Option FaultCode),
      (runPlan (straightPlan chk [portWrite mask value, respondPlain]) (s.inProgress c 0 .idle)).settle = _ :=
    fun c chk => run_oneCommit c (t := { s with out := mergeLatch s.out mask value }) chk _ rfl rfl rfl
  simp only [runCommand, start_eq_inProgress, hrun]
  rw [show (straightPlan chk [portWrite mask value, respondPlain]).check s.dirset
    = (straightPlan chk' [portWrite mask value, respondPlain]).check s.dirset from h]

/-- Among the bits of PORT, those that are no channel to write are the inputs (10_state R23, 60_exceptions R214). -/
theorem channelCheck_eq_namesInputs {i : Byte} (h : i.toNat ≤ 7) :
    channelCheck i = if namesInputs (1#8 <<< i.toNat) then some .invalidChannel else none := by
  have : ∀ n : Fin 8, (5 < n.val ↔ namesInputs (1#8 <<< n.val) = true) := by decide
  exact if_congr (this ⟨i.toNat, by omega⟩) rfl rfl

/-- Settles O8: each command has the port write, and the check, of its WRITE. -/
theorem pseudoInstructionsAndEquivalences : Obligations.PseudoInstructionsAndEquivalences := by
  refine ⟨⟨rfl, rfl, rfl, rfl, rfl, fun _ => rfl⟩, fun s i hi => ?_, fun s => ?_⟩
  · have hchk : whenConfigured (channelCheck i) s.dirset
        = whenConfigured (if namesInputs (1#8 <<< i.toNat) then some .invalidChannel else none) s.dirset := by
      rw [channelCheck_eq_namesInputs hi]
    exact ⟨runCommand_portWrite_congr _ _ hchk _ _, runCommand_portWrite_congr _ _ hchk _ _⟩
  · exact runCommand_portWrite_congr _ _ rfl 0x3F#8 0#8

/-! ### Assembler lines -/

/-- Settles O7: the word of the command that the line stands for, with the fields that are 0 left out. -/
theorem assemblerWords : Obligations.AssemblerWords := by
  intro m v i p c n k
  have hkey : ∀ x : Word, 0x0B000000#32 ||| x ||| 0x100#32 = 0x0B000100#32 ||| x := fun x => by
    rw [BitVec.or_assoc, BitVec.or_comm x, ← BitVec.or_assoc]; rfl
  simp [AsmLine.word, AsmLine.instr, encode, mkWord, hkey]

/-- Settles O6: six of the words are those of their commands, and two are outside every format. -/
theorem sampleWordsDecode : Obligations.SampleWordsDecode :=
  ⟨decode_encode (i := .setdir 0x3F#8) rfl, decode_encode (i := .write 0x0F#8 0x05#8) rfl,
    decode_encode (i := .bridge 1#8 1#8) rfl, decode_encode (i := .manv 3#8) rfl,
    decode_encode (i := .navtick) rfl, decode_encode (i := .contickKey 0x31#8) rfl, rfl, rfl⟩

end Sys2Proof.Machine
end

section
/-! SUPPORT. Bytes of a byte transport make a word (30_encoding R71, 20_memory R53). -/

namespace Sys2Proof.Machine

/-- A run of one step is that step. -/
theorem run_one (s : State) : Host.Core.run core 1 s = step s := by
  refine (Host.Core.run.eq_2 core s 0).trans ?_
  rw [show core.step s = step s from rfl]
  cases step s <;> rfl

/-- A byte of the host is taken between commands. -/
theorem step_byte {s : State} (hq : s.seq = .ready ∨ s.seq = .halt) (b : Byte) (ms : List Move) (bs : List Byte) :
    step (s.taking (.byte b :: ms) bs) = (acceptByte b (s.taking ms bs)).outcome :=
  step_idle (s := s.taking (.byte b :: ms) bs) hq

/-- Three bytes are kept until the fourth. -/
theorem run_threeBytes {s : State} (hq : s.seq = .ready ∨ s.seq = .halt) (a b c : Byte) (ms : List Move) (n : Nat) :
    Host.Core.run core (n + 3) (s.taking (.byte a :: .byte b :: .byte c :: ms) [])
      = Host.Core.run core n (s.taking ms [a, b, c]) :=
  calc Host.Core.run core (n + 3) (s.taking (.byte a :: .byte b :: .byte c :: ms) [])
    _ = Host.Core.run core (n + 2) (s.taking (.byte b :: .byte c :: ms) [a]) := run_succ (step_byte hq a _ [])
    _ = Host.Core.run core (n + 1) (s.taking (.byte c :: ms) [a, b]) := run_succ (step_byte hq b _ [a])
    _ = Host.Core.run core n (s.taking ms [a, b, c]) := run_succ (step_byte hq c _ [a, b])

/-- The fourth byte completes a word, which is then accepted. -/
theorem step_fourthByte {s : State} (hq : s.seq = .ready ∨ s.seq = .halt) (op a b c : Byte) (ms : List Move) :
    step (s.taking (.byte c :: ms) [op, a, b]) = step (s.taking (.word (mkWord op a b c) :: ms) []) :=
  (step_byte hq c ms [op, a, b]).trans (step_word (s := s.taking ms []) hq (mkWord op a b c) ms).symm

theorem taking_of_rx_nil {s : State} (h : s.rx = []) (ms : List Move) :
    ({ s with moves := ms } : State) = s.taking ms [] := by rw [State.taking, ← h]

/-- Settles O52: the partial word keeps the bytes in their order, and a reset does not look at it. -/
theorem byteTransportAssembles : Obligations.ByteTransportAssembles := by
  refine ⟨fun s w hq hrx => ?_, fun s a b c hq hrx => ⟨s.taking [] [a, b, c], ?_, rfl, ?_⟩⟩
  · rw [taking_of_rx_nil hrx, taking_of_rx_nil hrx]
    refine (run_threeBytes hq (wordOp w) (wordA w) (wordB w) [.byte (wordC w)] 1).trans ?_
    rw [run_one, step_fourthByte hq, mkWord_fields]
  · rw [taking_of_rx_nil hrx]
    exact run_threeBytes hq a b c [] 0
  · rw [run_one]
    exact step_idle (s := s.taking [.reset] [a, b, c]) hq

end Sys2Proof.Machine
end

section
/-! SUPPORT. The console's dispatch of a key by the table of 30_encoding R78. -/

namespace Sys2Proof.Machine

/-! ### The table by kind of key -/

/-- The rows of the digits that toggle a channel. -/
def toggleRows : List (Byte × KeyAction) :=
  [(0x31#8, .toggleChannel 0), (0x32#8, .toggleChannel 1), (0x33#8, .toggleChannel 2), (0x34#8, .toggleChannel 3),
    (0x35#8, .toggleChannel 4), (0x36#8, .toggleChannel 5)]

/-- The rows of keys that are no letter. -/
def plainRows : List (Byte × KeyAction) := toggleRows ++ [(0x30#8, .resetCounters), (0x1B#8, .quit)]

/-- The rows of KEYMAP_BC's letters, in upper case. -/
def keymapRows (k : Keymap) : List (Byte × KeyAction) :=
  [(k.bLeft, .bridge .b .left), (k.bRight, .bridge .b .right), (k.bCoast, .bridge .b .coast),
    (k.bBrake, .bridge .b .brake), (k.cLeft, .bridge .c .left), (k.cRight, .bridge .c .right),
    (k.cCoast, .bridge .c .coast), (k.cBrake, .bridge .c .brake)]

/-- The rows of the letters that drive a pair, in upper case. -/
def driveRows (k : Keymap) : List (Byte × KeyAction) :=
  [(0x41#8, .bridge .a .left), (0x53#8, .bridge .a .right), (0x5A#8, .bridge .a .coast), (0x58#8, .bridge .a .brake)]
    ++ keymapRows k

/-- The rows of all letters, in upper case. -/
def letterRows (k : Keymap) : List (Byte × KeyAction) := driveRows k ++ [(0x51#8, .quit)]

/-- A letter's row in upper and in lower case. -/
def bothCases (r : Byte × KeyAction) : List (Byte × KeyAction) := [r, (r.1 + 0x20#8, r.2)]

/-- The table holds the rows of the keys that are no letter, and each letter's row in both cases. -/
theorem mem_keyTable {k : Keymap} {e : Byte × KeyAction} :
    e ∈ keyTable k ↔ e ∈ plainRows ∨ ∃ r ∈ letterRows k, e = r ∨ e = (r.1 + 0x20#8, r.2) := by
  have h : keyTable k = toggleRows ++ (driveRows k).flatMap bothCases ++ (0x30#8, .resetCounters)
      :: bothCases (0x51#8, .quit) ++ [(0x1B#8, .quit)] := rfl
  have hl : (∃ r ∈ letterRows k, e = r ∨ e = (r.1 + 0x20#8, r.2)) ↔ e ∈ (letterRows k).flatMap bothCases := by
    simp [bothCases]
  rw [hl, h]
  simp only [plainRows, letterRows, List.flatMap_append, List.mem_append, List.mem_cons, List.flatMap_cons,
    List.flatMap_nil, List.not_mem_nil, or_false]
  tauto

/-! ### Letters -/

/-- An upper-case code (log 6). -/
def IsUpper (l : Byte) : Prop := 0x41 ≤ l.toNat ∧ l.toNat ≤ 0x5A

/-- The letters that no KEYMAP_BC may use: A, S, Z, X and Q (30_encoding R78). -/
def fixedLetters : List Byte := [0x41#8, 0x53#8, 0x5A#8, 0x58#8, 0x51#8]

/-- A letter in upper case and in lower case is dispatched alike. -/
theorem dispatchKey_bothCases (k : Keymap) {l : Byte} (h : IsUpper l) :
    dispatchKey k l = dispatchLetter k l ∧ dispatchKey k (l + 0x20#8) = dispatchLetter k l := by
  obtain ⟨hlo, hhi⟩ := h
  have hlow : (l + 0x20#8).toNat = l.toNat + 0x20 := by bv_omega
  have hup : l + 0x20#8 - 0x20#8 = l := by bv_omega
  constructor
  · have : isLetter l = true := by simp [isLetter]; omega
    rw [dispatchKey, if_pos this, upperCase, if_neg (by omega)]
  · have : isLetter (l + 0x20#8) = true := by simp [isLetter, hlow]; omega
    rw [dispatchKey, if_pos this, upperCase, if_pos (by omega), hup]

/-- A key is its own upper case, or 0x20 above it. -/
theorem eq_upperCase_or {key : Byte} : key = upperCase key ∨ key = upperCase key + 0x20#8 := by
  unfold upperCase
  split
  · right; bv_omega
  · exact .inl rfl

/-- What R78 says of the letters of KEYMAP_BC. -/
theorem legal_iff (k : Keymap) : k.legal = true ↔
    k.letters.Nodup ∧ ∀ l ∈ k.letters, IsUpper l ∧ l ∉ fixedLetters := by
  simp [Keymap.legal, IsUpper, fixedLetters, and_assoc]

/-- The letters of a legal KEYMAP_BC are distinct, so each is the first match of its own. -/
theorem dispatchKeymap_row {k : Keymap} (h : k.letters.Nodup) :
    ∀ r ∈ keymapRows k, dispatchKeymap k r.1 = r.2 := by
  simp only [Keymap.letters, List.nodup_cons, List.mem_cons, List.not_mem_nil, or_false, not_or] at h
  simp only [keymapRows, List.forall_mem_cons, dispatchKeymap]
  grind

/-- A letter that is not A, S, Z, X or Q is left to KEYMAP_BC. -/
theorem dispatchLetter_of_notMem {k : Keymap} {l : Byte}
    (h : l ∉ fixedLetters) : dispatchLetter k l = dispatchKeymap k l := by
  simp only [fixedLetters, BitVec.toNat_eq, List.mem_cons, List.not_mem_nil, or_false, not_or] at h
  unfold dispatchLetter
  split <;> simp_all

theorem dispatchLetter_row {k : Keymap} (h : k.legal = true) :
    ∀ r ∈ letterRows k, IsUpper r.1 ∧ dispatchLetter k r.1 = r.2 := by
  obtain ⟨hn, hl⟩ := (legal_iff k).mp h
  have hk : ∀ r ∈ keymapRows k, IsUpper r.1 ∧ dispatchLetter k r.1 = r.2 := by
    intro r hr
    obtain ⟨hu, hf⟩ := hl r.1 (List.mem_map_of_mem (f := Prod.fst) hr)
    exact ⟨hu, (dispatchLetter_of_notMem hf).trans (dispatchKeymap_row hn r hr)⟩
  intro r hr
  simp only [letterRows, driveRows, List.mem_append, List.mem_cons, List.not_mem_nil, or_false] at hr
  rcases hr with ((rfl | rfl | rfl | rfl) | hr) | rfl
  case inl.inr => exact hk r hr
  all_goals exact ⟨⟨by decide, by decide⟩, rfl⟩

theorem dispatchLetter_noAction {k : Keymap} {l : Byte} (h : l ∉ (letterRows k).map Prod.fst) :
    dispatchLetter k l = .noAction := by
  simp only [letterRows, driveRows, keymapRows, List.cons_append, List.nil_append, List.map_cons, List.map_nil,
    List.mem_cons, List.not_mem_nil, or_false, not_or] at h
  rw [dispatchLetter_of_notMem (by simp [fixedLetters, h])]
  simp [dispatchKeymap, h]

/-! ### Other keys -/

theorem dispatchKey_plain (k : Keymap) : ∀ r ∈ plainRows, dispatchKey k r.1 = r.2 := by
  simp only [plainRows, toggleRows, List.cons_append, List.nil_append, List.forall_mem_cons]
  exact ⟨rfl, rfl, rfl, rfl, rfl, rfl, rfl, rfl, by simp⟩

theorem dispatchKey_noAction_of_not_isLetter {k : Keymap} {key : Byte} (hl : isLetter key = false)
    (h : key ∉ plainRows.map Prod.fst) : dispatchKey k key = .noAction := by
  simp only [plainRows, toggleRows, List.cons_append, List.nil_append, List.map_cons, List.map_nil, List.mem_cons,
    List.not_mem_nil, or_false, not_or, BitVec.toNat_eq] at h
  rw [dispatchKey, if_neg (by simp [hl])]
  split <;> simp_all

/-- Settles O10: a letter is dispatched by its upper case, whose row is unique in a legal KEYMAP_BC. -/
theorem keyDispatchTable : Obligations.KeyDispatchTable := by
  intro k hk
  constructor
  · intro e he
    rcases mem_keyTable.mp he with h | ⟨r, hr, h⟩
    · exact dispatchKey_plain k e h
    · obtain ⟨hu, hd⟩ := dispatchLetter_row hk r hr
      obtain ⟨hupper, hlower⟩ := dispatchKey_bothCases k hu
      rcases h with rfl | rfl
      · exact hupper.trans hd
      · exact hlower.trans hd
  · intro key hkey
    have hno : ∀ e ∈ keyTable k, e.1 ≠ key := fun e he h => hkey (h ▸ List.mem_map_of_mem he)
    cases hl : isLetter key with
    | true =>
      rw [dispatchKey, if_pos hl]
      refine dispatchLetter_noAction fun hu => ?_
      obtain ⟨r, hr, hru⟩ := List.mem_map.mp hu
      rcases eq_upperCase_or (key := key) with h | h
      · exact hno r (mem_keyTable.mpr (.inr ⟨r, hr, .inl rfl⟩)) (hru.trans h.symm)
      · exact hno _ (mem_keyTable.mpr (.inr ⟨r, hr, .inr rfl⟩)) (by rw [h, hru])
    | false =>
      refine dispatchKey_noAction_of_not_isLetter hl fun hp => ?_
      obtain ⟨r, hr, rfl⟩ := List.mem_map.mp hp
      exact hno r (mem_keyTable.mpr (.inl hr)) rfl

end Sys2Proof.Machine
end

section
/-! SUPPORT. The port commands (40_port): each is its check and one exchange, and a latch changes bit by bit. -/

namespace Sys2Proof.Machine

/-! ### Commands of one exchange -/

/-- A command of one commit whose checks pass; `t` is the state after its register updates. -/
theorem exec_oneCommit {i : Instr} {s t : State} {chk : Bool → Option FaultCode} {us : List RegUpdate}
    (hp : planOf s.cfg i = straightPlan chk [⟨us, .commit⟩, respondPlain])
    (hh : s.halted = false) (hc : chk s.dirset = none)
    (hu : us.foldl applyUpdate (s.inProgress i 0 .idle) = t.inProgress i 0 .idle)
    (he : t.env = s.env) (hd : t.draws = s.draws) :
    (exchangeSucceeds (s.exchangeAt 0) = true →
        exec i s = .next ((t.committed t.out).answered (plainResponse 0#4 t.err)))
      ∧ (exchangeSucceeds (s.exchangeAt 0) = false →
        exec i s = .next (takeFault .deviceUnavailable t.exchangeLost)) := by
  rw [exec_run hh (by rw [hp]; exact hc), hp, run_oneCommit i chk us hu he hd]
  exact ⟨fun hx => by rw [if_pos hx], fun hx => by rw [if_neg (by simp [hx])]⟩

/-- A configured command of one commit whose register update changes the latch by `f` and nothing else. -/
theorem exec_latchCommit {i : Instr} {s : State} {operands : Option FaultCode} {u : RegUpdate}
    (f : Latch → Latch) (hs : s.running)
    (hp : planOf s.cfg i = straightPlan (whenConfigured operands) [⟨[u], .commit⟩, respondPlain])
    (hc : operands = none) (hu : ∀ t : State, applyUpdate t u = { t with out := f t.out }) :
    (exchangeSucceeds (s.exchangeAt 0) = true →
        exec i s = .next ((s.committed (f s.out)).answered (plainResponse 0#4 s.err)))
      ∧ (exchangeSucceeds (s.exchangeAt 0) = false →
        exec i s = .next (takeFault .deviceUnavailable (s.commitFailed (f s.out)))) := by
  obtain ⟨hh, hd⟩ := hs
  exact exec_oneCommit (t := { s with out := f s.out }) hp hh (by rw [hd]; exact hc) (hu _) rfl rfl

/-- A configured command that reports one sample. -/
theorem exec_oneSample {i : Instr} {s : State} {r : Report} (hs : s.running)
    (hp : planOf s.cfg i = straightPlan (whenConfigured none) [⟨[], .sample⟩, ⟨[], .respond r⟩]) :
    (∀ p, s.exchangeAt 0 = .done p → exec i s = .next (s.sampledOnce.answered
        (okResponse r (s.inProgress i 1 { Hidden.idle with sample := some p }))))
      ∧ (s.exchangeAt 0 = .failed → exec i s = .next (takeFault .deviceUnavailable s.exchangeLost)) := by
  obtain ⟨hh, hd⟩ := hs
  rw [exec_run hh (by rw [hp, hd]; rfl), hp, run_oneSample]
  exact ⟨fun p hx => by rw [hx], fun hx => by rw [hx]⟩

/-- A configured command on channel `a`: an index above 5 faults, and one up to 5 changes the latch by `f`. -/
theorem exec_channel {i : Instr} {s : State} {a : Byte} {u : RegUpdate} (f : Latch → Latch) (hs : s.running)
    (hp : planOf s.cfg i = straightPlan (whenConfigured (channelCheck a)) [⟨[u], .commit⟩, respondPlain])
    (hu : a.toNat ≤ 5 → ∀ t : State, applyUpdate t u = { t with out := f t.out }) :
    (5 < a.toNat → exec i s = .next (takeFault .invalidChannel s))
      ∧ (a.toNat ≤ 5 → exchangeSucceeds (s.exchangeAt 0) = true →
          exec i s = .next ((s.committed (f s.out)).answered (plainResponse 0#4 s.err)))
      ∧ (a.toNat ≤ 5 → exchangeSucceeds (s.exchangeAt 0) = false →
          exec i s = .next (takeFault .deviceUnavailable (s.commitFailed (f s.out)))) := by
  have hrun (ha : a.toNat ≤ 5) := exec_latchCommit f hs hp (if_neg (Nat.not_lt.mpr ha)) (hu ha)
  refine ⟨fun ha => exec_operandFault hs ?_, fun ha => (hrun ha).1, fun ha => (hrun ha).2⟩
  rw [hp]
  exact channelCheck_of_ge ha

/-- A response leaves the environment's answers alone. -/
@[simp] theorem exchangeAt_answered (s : State) (r : Response) (n : Nat) :
    (s.answered r).exchangeAt n = s.exchangeAt n := rfl

/-! ### The latch, bit by bit -/

/-- The masked merge takes the value's bit where the mask has one (40_port R104). -/
theorem mergeLatch_getLsbD (o : Latch) (mask value : Byte) {j : Nat} (hj : j < 6) :
    (mergeLatch o mask value).getLsbD j = if mask.getLsbD j then value.getLsbD j else o.getLsbD j := by
  cases hm : mask.getLsbD j <;> simp [mergeLatch, hj, hm]

/-- A channel complemented is an exclusive or with its mask. -/
theorem setChannel_not (o : Latch) {i : Nat} (hi : i ≤ 5) :
    setChannel o i (!o.getLsbD i) = o ^^^ (1#6 <<< i) := by
  have : ∀ (n : Fin 6) (o : Latch), setChannel o n.val (!o.getLsbD n.val) = o ^^^ (1#6 <<< n.val) := by decide
  exact this ⟨i, by omega⟩ o

theorem xor_channel_getLsbD (o : Latch) (i : Nat) {j : Nat} (hj : j < 6) :
    (o ^^^ (1#6 <<< i)).getLsbD j = if j = i then !o.getLsbD j else o.getLsbD j := by
  rw [BitVec.getLsbD_xor, ← BitVec.twoPow_eq, BitVec.getLsbD_twoPow]
  by_cases h : j = i
  · subst h; simp [hj]
  · simp [h, Ne.symm h]

theorem applyUpdate_channelLatch (s : State) {i : Nat} (hi : i ≤ 5) (b : Bool) :
    applyUpdate s (.latch (channelMask i) (if b then channelMask i else 0#8))
      = { s with out := setChannel s.out i b } := by
  rw [← mergeLatch_channel i hi]; rfl

/-! ### The commands -/

/-- Settles O16: the check looks at DIRSET before the mask, and the commit leaves the latch as it is. -/
theorem setdirWhole : Obligations.SetdirWhole := by
  refine ⟨fun a => by simp [encode, mkWord], fun s a hh => ?_⟩
  have hrun (hd : s.dirset = false) (ha : a = dirMask) :=
    exec_oneCommit (i := .setdir a) (t := { s with dir := 0x3F#8, dirset := true }) (chk := setdirCheck a)
      (us := [.setDir]) rfl hh (by rw [hd]; exact if_pos ha) rfl rfl rfl
  exact ⟨fun hd => exec_fault hh (by rw [hd]; rfl), fun hd ha => exec_fault hh (by rw [hd]; exact if_neg ha),
    fun hd ha => (hrun hd ha).1, fun hd ha => (hrun hd ha).2⟩

/-- Settles O17: a mask without input channels passes the check, and the latch takes the masked merge. -/
theorem writeWhole : Obligations.WriteWhole := by
  refine ⟨fun a b => by simp [encode, mkWord], fun s mask value hs => ⟨fun hm => ?_, fun hm => ?_⟩⟩
  · exact exec_operandFault hs (if_pos (bne_iff_ne.mpr hm))
  · exact ⟨mergeLatch s.out mask value, fun j hj => mergeLatch_getLsbD _ _ _ hj,
      exec_latchCommit (mergeLatch · mask value) hs rfl (if_neg (by simp [namesInputs, hm])) fun _ => rfl⟩

/-- Settles O18: the report of the sample is the port value. -/
theorem readWhole : Obligations.ReadWhole :=
  ⟨by decide, fun _ hs => exec_oneSample (i := .read) (r := .port) hs rfl⟩

/-- Settles O19: the report of the sample is the sample. -/
theorem senseWhole : Obligations.SenseWhole :=
  ⟨by decide, fun _ hs => exec_oneSample (i := .sense) (r := .sense) hs rfl⟩

/-- Settles O20: the channel call sets the channel. -/
theorem setWhole : Obligations.SetWhole := by
  refine ⟨fun a => by simp [encode, mkWord], fun s a hs => ?_⟩
  exact exec_channel (setChannel · a.toNat true) hs rfl fun ha t => applyUpdate_channelLatch t ha true

/-- Settles O21: the channel call clears the channel. -/
theorem clrWhole : Obligations.ClrWhole := by
  refine ⟨fun a => by simp [encode, mkWord], fun s a hs => ?_⟩
  exact exec_channel (setChannel · a.toNat false) hs rfl fun ha t => applyUpdate_channelLatch t ha false

/-- Settles O22: the register update complements the channel, and its commit is the one exchange. -/
theorem tglWhole : Obligations.TglWhole := by
  refine ⟨fun a => by simp [encode, mkWord], fun s a hs => ?_⟩
  exact exec_channel (fun o => setChannel o a.toNat (!o.getLsbD a.toNat)) hs rfl
    fun ha t => applyUpdate_toggle t a.toNat ha

/-- Settles O24: the merge under the mask of all six outputs is 0. -/
theorem zeroallWhole : Obligations.ZeroallWhole := by
  have hz : ∀ o : Latch, mergeLatch o 0x3F#8 0#8 = 0#6 := by decide
  refine ⟨by decide, fun s hs => ?_⟩
  exact exec_latchCommit (fun _ => 0#6) hs rfl rfl fun t => by rw [applyUpdate, hz]

/-- TGL of an output channel whose commit succeeds, with the channel's mask. -/
theorem exec_tgl_done {s : State} {a : Byte} (hs : s.running) (ha : a.toNat ≤ 5)
    (hx : exchangeSucceeds (s.exchangeAt 0) = true) :
    exec (.tgl a) s
      = .next ((s.committed (s.out ^^^ (1#6 <<< a.toNat))).answered (plainResponse 0#4 s.err)) := by
  obtain ⟨-, htgl⟩ := tglWhole
  obtain ⟨-, hdone, -⟩ := htgl s a hs
  rw [hdone ha hx, setChannel_not _ ha]

/-- Settles O23: an exclusive or with the channel's mask, done twice, restores the latch. -/
theorem toggleTwiceRestores : Obligations.ToggleTwiceRestores := by
  intro s a hs ha hx
  have hback : s.out ^^^ (1#6 <<< a.toNat) ^^^ (1#6 <<< a.toNat) = s.out := by
    rw [BitVec.xor_assoc, BitVec.xor_self, BitVec.xor_zero]
  refine ⟨_, _, exec_tgl_done hs ha (hx 0 (by omega)), exec_tgl_done hs ha (by simpa using hx 1 (by omega)),
    fun j hj => xor_channel_getLsbD _ _ hj, hback, ?_⟩
  simp [hback]

end Sys2Proof.Machine
end

section
/-! SUPPORT. The direction mask (40_port R100): only SETDIR's register update writes it, and only a reset clears
its flag. -/

namespace Sys2Proof.Machine

/-! ### Commands other than SETDIR -/

/-- `DIR` and `DIRSET`. -/
def State.mask (s : State) : Byte × Bool := (s.dir, s.dirset)

/-- Every register update but SETDIR's leaves the mask alone. -/
theorem applyUpdate_mask {u : RegUpdate} (h : u ≠ .setDir) (s : State) : (applyUpdate s u).mask = s.mask := by
  cases u with
  | setDir => exact absurd rfl h
  | _ => rfl

/-- After its register updates a micro-step leaves the mask alone, also where a fault it raises is taken. -/
theorem perform_settle_mask (m : MicroStep) (s : State) : (perform m s).settle.mask = (enterMicro m s).mask := by
  rcases perform_cases m s with ⟨-, h⟩ | ⟨-, h⟩ | ⟨-, p, h⟩ | ⟨d, -, h⟩ | ⟨r, -, h⟩ <;>
    simp [h, Flow.settle, State.mask, finish]

theorem andThen_settle_mask {f : State → Flow} (hf : ∀ t, (f t).settle.mask = t.mask) (x : Flow) :
    (x.andThen f).settle.mask = x.settle.mask := by
  cases x with
  | going t => exact hf t
  | raised e t => rfl

/-- Micro-steps without SETDIR's register update leave the mask alone. -/
theorem runSteps_settle_mask {l : List MicroStep} (hl : ∀ m ∈ l, .setDir ∉ m.pre) (s : State) :
    (runSteps l s).settle.mask = s.mask := by
  induction l generalizing s with
  | nil => rfl
  | cons m ms ih =>
    obtain ⟨hm, hms⟩ := List.forall_mem_cons.mp hl
    rw [runSteps_cons, andThen_settle_mask (ih hms), perform_settle_mask]
    exact enterMicro_induction (P := fun t => t.mask = s.mask)
      (fun t u hu ht => (applyUpdate_mask (ne_of_mem_of_not_mem hu hm) t).trans ht) rfl

theorem setDir_notMem_consolePlan (action : KeyAction) (smp : Sensors) :
    ∀ m ∈ (consolePlan action).head ++ (consolePlan action).tail smp, .setDir ∉ m.pre := by
  simp only [consolePlan, straightPlan]
  cases action <;>
    simp [actionSteps, actionUpdates, cycleEnd, applyBridge, channelWrite, portWrite, channelToggle]

/-- No command but SETDIR has a micro-step with SETDIR's register update. -/
theorem setDir_notMem_planOf (cfg : Config) {i : Instr} (hi : ∀ a, i ≠ .setdir a) (smp : Sensors) :
    ∀ m ∈ (planOf cfg i).head ++ (planOf cfg i).tail smp, .setDir ∉ m.pre := by
  cases i with
  | setdir a => exact absurd rfl (hi a)
  | bridge a b =>
    simp only [planOf, bridgePlan, straightPlan]
    cases pairOfCode a <;> cases bridgeCommandOfCode b <;>
      simp [applyBridge, channelWrite, portWrite, respondPlain]
  | navtick =>
    simp only [planOf, navtickPlan, navActions]
    split <;> decide
  | contickKey key => exact setDir_notMem_consolePlan _ smp
  | manv a =>
    simp only [planOf, manvPlan, straightPlan]
    cases maneuverOfCode a <;> decide
  | contick => exact setDir_notMem_consolePlan _ smp
  | _ => simp [planOf, straightPlan, writePlan, readPlan, setPlan, clrPlan, tglPlan, sensePlan, zeroallPlan, portWrite,
      channelWrite, channelToggle, respondPlain, memRead, memWrite]

theorem runPlan_settle_mask {p : Plan} (hp : ∀ smp, ∀ m ∈ p.head ++ p.tail smp, .setDir ∉ m.pre) (s : State) :
    (runPlan p s).settle.mask = s.mask := by
  have htail (t : State) : (runSteps (p.tail t.sampled) t).settle.mask = t.mask :=
    runSteps_settle_mask (fun m hm => hp t.sampled m (List.mem_append_right _ hm)) t
  rw [runPlan, andThen_settle_mask htail]
  exact runSteps_settle_mask (fun m hm => hp 0#2 m (List.mem_append_left _ hm)) s

/-- A command other than SETDIR leaves the mask alone, refused, faulted or completed. -/
theorem exec_mask {i : Instr} {s t : State} (hi : ∀ a, i ≠ .setdir a) (h : exec i s = .next t) :
    t.mask = s.mask := by
  rw [exec_eq_runCommand] at h
  rcases runCommand_cases i (planOf s.cfg i) s with ⟨-, hx⟩ | ⟨-, e, -, hx⟩ | ⟨-, -, hx⟩ <;>
    obtain rfl := Host.Outcome.next.inj (hx.symm.trans h)
  · rfl
  · simp [State.mask]
  · exact runPlan_settle_mask (setDir_notMem_planOf s.cfg hi) _

/-! ### The flag, once set -/

theorem applyUpdate_dirset {s : State} (h : s.dirset = true) (u : RegUpdate) : (applyUpdate s u).dirset = true := by
  cases u with
  | setDir => rfl
  | _ => exact h

theorem enterMicro_dirset {s : State} (h : s.dirset = true) (m : MicroStep) : (enterMicro m s).dirset = true :=
  enterMicro_induction (P := fun t => t.dirset = true) (fun _ u _ ht => applyUpdate_dirset ht u) h

theorem perform_pause_dirset {s : State} (h : s.dirset = true) (m : MicroStep) :
    (perform m s).pause.dirset = true := by
  have he := enterMicro_dirset h m
  rcases perform_cases m s with ⟨-, h⟩ | ⟨-, h⟩ | ⟨-, p, h⟩ | ⟨d, -, h⟩ | ⟨r, -, h⟩ <;>
    simp [h, Flow.pause, finish, he]

theorem performTick_dirset {s : State} (h : s.dirset = true) (m : MicroStep) :
    (performTick m s).dirset = true := by
  have he := enterMicro_dirset h m
  unfold performTick
  split
  · split <;> simp [he]
  all_goals exact h

@[simp] theorem faultMicro_dirset (e : FaultCode) (cleaned : Bool) (s : State) :
    (faultMicro e cleaned s).dirset = s.dirset := by
  unfold faultMicro
  split
  · rfl
  · split <;> simp

@[simp] theorem acceptPaused_dirset (w : Word) (s : State) : (acceptPaused w s).dirset = s.dirset := by
  unfold acceptPaused
  split
  · rfl
  · split
    · rfl
    · split <;> rfl

theorem MicroRun.dirset {n : Nat} {s t : State} (hr : MicroRun n s t) (h : s.dirset = true) :
    t.dirset = true := by
  induction hr with
  | idle _ => exact h
  | micro _ _ _ ih => exact ih (perform_pause_dirset h _)
  | fault _ _ ih => exact ih ((faultMicro_dirset _ _ _).trans h)

/-- A word executed whole is a run of micro-steps, which keep the flag. -/
theorem acceptWord_dirset {s t : State} {w : Word} (hd : s.dirset = true) (hq : s.seq = .ready ∨ s.seq = .halt)
    (ht : (acceptWord w s).outcome = .next t) : t.dirset = true := by
  obtain ⟨u, hu, hr⟩ := acceptWord_microRun w hq
  obtain rfl : u = t := Host.Outcome.next.inj (hu.symm.trans ht)
  exact hr.dirset ((acceptPaused_dirset w s).trans hd)

theorem acceptByte_dirset {s t : State} {b : Byte} (hd : s.dirset = true) (hq : s.seq = .ready ∨ s.seq = .halt)
    (ht : (acceptByte b s).outcome = .next t) : t.dirset = true := by
  unfold acceptByte at ht
  split at ht
  · next rest _ => exact acceptWord_dirset (s := { s with rx := rest }) hd hq ht
  all_goals
    cases ht
    exact hd

theorem microStep_dirset {s t : State} {c : Instr} {k : Nat} (hd : s.dirset = true)
    (ht : microStep c k s = .next t) : t.dirset = true := by
  unfold microStep at ht
  split at ht <;> cases ht
  exact perform_pause_dirset hd _

theorem microTick_dirset {s t : State} {c : Instr} {k : Nat} (hd : s.dirset = true)
    (ht : microTick c k s = .next t) : t.dirset = true := by
  unfold microTick at ht
  split at ht <;> cases ht
  exact performTick_dirset hd _

/-- The host resets, or the flag is set in `t`, the state after `s`. -/
def State.ResetOrSet (s t : State) : Prop := (∃ ms, s.moves = .reset :: ms) ∨ t.dirset = true

theorem actIdle_dirset {s t : State} (hd : s.dirset = true) (hq : s.seq = .ready ∨ s.seq = .halt)
    (ht : (actIdle s).outcome = .next t) : s.ResetOrSet t := by
  unfold actIdle at ht
  split at ht
  · cases ht; exact .inr hd
  · next w ms _ => exact .inr (acceptWord_dirset (s := s.withMoves ms) hd hq ht)
  · next w ms _ => cases ht; exact .inr ((acceptPaused_dirset w _).trans hd)
  · next b ms _ => exact .inr (acceptByte_dirset (s := s.withMoves ms) hd hq ht)
  · cases ht; exact .inr hd
  · cases ht; exact .inr hd
  · next ms hm => exact .inl ⟨ms, hm⟩

theorem actExec_dirset {s t : State} {c : Instr} {k : Nat} (hd : s.dirset = true)
    (ht : (actExec c k s).outcome = .next t) : s.ResetOrSet t := by
  unfold actExec at ht
  split at ht
  case h_5 ms _ => exact .inr (microStep_dirset (s := s.withMoves ms) hd ht)
  case h_6 ms _ => exact .inr (microTick_dirset (s := s.withMoves ms) hd ht)
  case h_7 ms hm => exact .inl ⟨ms, hm⟩
  all_goals exact .inr (microStep_dirset hd ht)

theorem actFaulting_dirset {s t : State} {e : FaultCode} {cleaned : Bool} (hd : s.dirset = true)
    (ht : (actFaulting e cleaned s).outcome = .next t) : s.ResetOrSet t := by
  unfold actFaulting at ht
  split at ht <;> cases ht
  case h_6 => exact .inr hd
  case h_7 ms hm => exact .inl ⟨ms, hm⟩
  all_goals exact .inr ((faultMicro_dirset _ _ _).trans hd)

theorem step_dirset {s t : State} (hd : s.dirset = true) (ht : step s = .next t) : s.ResetOrSet t := by
  rw [step_eq, act] at ht
  split at ht
  · next hq => exact actIdle_dirset hd (.inl hq) ht
  · next hq => exact actIdle_dirset hd (.inr hq) ht
  · exact actExec_dirset hd ht
  · exact actFaulting_dirset hd ht

/-- Settles O46: a step that does not reset keeps the flag, and with the flag the invariant fixes `DIR`. -/
theorem directionMaskWriteOnce : Obligations.DirectionMaskWriteOnce := by
  refine ⟨fun i s t hi h => Prod.mk.inj (exec_mask hi h), fun s t hs h hd => ?_⟩
  refine (step_dirset hd h).imp_right fun ht => ⟨ht, ?_⟩
  rw [(stepKeepsInvariant s t hs h).dirMask ht, hs.dirMask hd]

end Sys2Proof.Machine
end

section
/-! SUPPORT. The command BRIDGE (41_bridge): its check, its two channel calls in order, and what the pair's pins
show between them. -/

namespace Sys2Proof.Machine

/-! ### The command -/

theorem pairOfCode_name (p : Pair) : pairOfCode (PairOperand.name p).code = some p := by cases p <;> rfl

theorem bridgeCommandOfCode_name (c : BridgeCommand) :
    bridgeCommandOfCode (CommandOperand.name c).code = some c := by cases c <;> rfl

theorem bridgeValues_eq (o : Latch) (p : Pair) (c : BridgeCommand) :
    bridgeValues o p c = channelValues o (bridgeWrites p c) := rfl

/-- A configured BRIDGE with recognized codes is its channel writes and a plain response (41_bridge R144). -/
theorem exec_bridge_eq {s : State} {a b : Byte} {p : Pair} {c : BridgeCommand} (hs : s.running)
    (ha : pairOfCode a = some p) (hb : bridgeCommandOfCode b = some c) :
    exec (.bridge a b) s = .next (runSteps (channelSteps (bridgeWrites p c) ++ [respondPlain])
      (s.inProgress (.bridge a b) 0 .idle)).settle := by
  obtain ⟨hh, hd⟩ := hs
  have hplan : planOf s.cfg (.bridge a b) = straightPlan (whenConfigured (bridgeCheck a b))
      (channelSteps (bridgeWrites p c) ++ [respondPlain]) := by
    simp only [planOf, bridgePlan, ha, hb, applyBridge_eq]
  rw [exec_run hh (by simp [hplan, straightPlan, whenConfigured, bridgeCheck, hd, ha, hb]), hplan, runPlan_straight]

/-- A BRIDGE whose two commits succeed (41_bridge R143). -/
theorem exec_bridge_done {s : State} {a b : Byte} {p : Pair} {c : BridgeCommand} (hs : s.running)
    (ha : pairOfCode a = some p) (hb : bridgeCommandOfCode b = some c) (hx : s.exchangesSucceed 2) :
    exec (.bridge a b) s
      = .next ((s.committedAll (bridgeValues s.out p c)).answered (plainResponse 0#4 s.err)) := by
  rw [exec_bridge_eq hs ha hb, runSteps_channelSteps_done _ (bridgeWrites_channels p c) _ _ _ _ rfl _ hx,
    runSteps_cons, respondPlain, perform_respond _ rfl]
  rfl

/-- A BRIDGE whose commit `j`, from 0, is the first to fail: the channels up to that call are updated
(41_bridge R143). -/
theorem exec_bridge_failed {s : State} {a b : Byte} {p : Pair} {c : BridgeCommand} (hs : s.running)
    (ha : pairOfCode a = some p) (hb : bridgeCommandOfCode b = some c) {j : Nat} (hj : j < 2)
    (hx : s.exchangesSucceed j) (hf : exchangeSucceeds (s.exchangeAt j) = false) :
    exec (.bridge a b) s = .next (takeFault .deviceUnavailable
      ((s.committedAll ((bridgeValues s.out p c).take j)).commitFailed
        (((bridgeValues s.out p c)[j]?).getD 0#6))) := by
  rw [exec_bridge_eq hs ha hb, runSteps_channelSteps_failed _ (bridgeWrites_channels p c) _ _ _ _ rfl _ j hj hx hf,
    settle_raised, bridgeValues_eq]

/-- Settles O25: unrecognized codes fail the check, and recognized ones run the two channel calls in order. -/
theorem bridgeWhole : Obligations.BridgeWhole := by
  refine ⟨fun a b => by simp [encode, mkWord],
    fun s a b hs hab => exec_operandFault hs (bridgeCheck_of_ge hab), ?_⟩
  rintro s p c _ _ hs rfl rfl
  have hp := pairOfCode_name p
  have hc := bridgeCommandOfCode_name c
  refine ⟨exec_bridge_done hs hp hc, fun hf => ?_, fun hx hf => ?_⟩
  · exact exec_bridge_failed hs hp hc (j := 0) (by omega) (fun k hk => by omega) hf
  · refine exec_bridge_failed hs hp hc (j := 1) (by omega) (fun k hk => ?_) hf
    rwa [Nat.lt_one_iff.mp hk]

/-! ### The latch around a BRIDGE -/

/-- No channel outside the pair changes, at either call (41_bridge R146). -/
theorem setChannel_pair_frame (o : Latch) (p : Pair) (b1 b2 : Bool) {j : Nat} (hlo : j ≠ pairLo p)
    (hhi : j ≠ pairHi p) :
    (setChannel o (pairLo p) b1).getLsbD j = o.getLsbD j
      ∧ (setChannel (setChannel o (pairLo p) b1) (pairHi p) b2).getLsbD j = o.getLsbD j := by
  by_cases hj : j < 6
  · obtain ⟨-, -, -, -, hframe⟩ := setChannel_pair o p b1 b2
    exact hframe j hj hlo hhi
  · simp only [BitVec.getLsbD_of_ge _ j (Nat.le_of_not_lt hj), and_self]

/-- A configured BRIDGE that ends without fault has made both channel calls. -/
theorem exec_bridge_out {s t : State} {a b : Byte} {p : Pair} {c : BridgeCommand} (hs : s.running)
    (ha : pairOfCode a = some p) (hb : bridgeCommandOfCode b = some c) (h : exec (.bridge a b) s = .next t)
    (ht : t.halted = false) :
    t.out = setChannel (setChannel s.out (pairLo p) (bridgeTarget c).1) (pairHi p) (bridgeTarget c).2 := by
  rcases exchangesSucceed_or_first_failed s 2 with hx | ⟨j, hj, hx, hf⟩
  · rw [exec_bridge_done hs ha hb hx] at h
    cases h
    rfl
  · rw [exec_bridge_failed hs ha hb hj hx hf] at h
    cases h
    simp at ht

/-- Settles O26: an end without fault rules out a failed commit, and the two calls leave the pair at its target. -/
theorem bridgeGuarantee : Obligations.BridgeGuarantee := by
  intro s t a b p c hs ha hb h ht
  obtain ⟨hlo, hhi, -⟩ := setChannel_pair s.out p (bridgeTarget c).1 (bridgeTarget c).2
  rw [exec_bridge_out hs ha hb h ht, hlo, hhi]
  refine ⟨?_, ?_, fun j hjlo hjhi => (setChannel_pair_frame _ p _ _ hjlo hjhi).2⟩
  · cases c <;> rfl
  · cases c <;> rfl

/-! ### Between the commits -/

/-- The bits of a pair's channels, first then second, as bridgeTarget gives them (41_bridge R141). -/
def pairBits (o : Latch) (p : Pair) : Bool × Bool := (o.getLsbD (pairLo p), o.getLsbD (pairHi p))

/-- After the first channel call a pair shows (new first, old second). -/
theorem pairBits_setChannel_lo (o : Latch) (p : Pair) (b : Bool) :
    pairBits (setChannel o (pairLo p) b) p = (b, (pairBits o p).2) := by
  obtain ⟨-, -, hlo, hhi, -⟩ := setChannel_pair o p b b
  exact Prod.ext hlo hhi

/-- After both channel calls a pair shows the two new bits. -/
theorem pairBits_setChannel_both (o : Latch) (p : Pair) (b1 b2 : Bool) :
    pairBits (setChannel (setChannel o (pairLo p) b1) (pairHi p) b2) p = (b1, b2) := by
  obtain ⟨hlo, hhi, -⟩ := setChannel_pair o p b1 b2
  exact Prod.ext hlo hhi

/-- (new first, old second) is a third state for four choices of the prior state and the command (41_bridge R145,
log 24). -/
theorem bridgeMid_third_iff (prior : Bool × Bool) (c : BridgeCommand) {mid : Bool × Bool}
    (hmid : mid = ((bridgeTarget c).1, prior.2)) :
    (mid ≠ prior ∧ mid ≠ bridgeTarget c) ↔
      (prior = bridgeTarget .left ∧ c = .right ∧ mid = bridgeTarget .coast)
        ∨ (prior = bridgeTarget .right ∧ c = .left ∧ mid = bridgeTarget .brake)
        ∨ (prior = bridgeTarget .brake ∧ c = .coast ∧ mid = bridgeTarget .right)
        ∨ (prior = bridgeTarget .coast ∧ c = .brake ∧ mid = bridgeTarget .left) := by
  subst hmid
  cases c <;> revert prior <;> decide

/-- The pin trace of two commits and a response. -/
theorem trace_committed_twice (s : State) (v1 v2 : Latch) (r : Response) :
    (((s.committed v1).committed v2).answered r).trace
      = s.trace ++ [⟨.driven v1, s.ticks⟩, ⟨.driven v2, s.ticks⟩] := List.append_assoc ..

/-- Settles O27: the first call changes the first channel alone, so its entry shows the old second bit. -/
theorem bridgeTransients : Obligations.BridgeTransients := by
  intro s p c hs hx
  have hmid := pairBits_setChannel_lo s.out p (bridgeTarget c).1
  have htarget := pairBits_setChannel_both s.out p (bridgeTarget c).1 (bridgeTarget c).2
  refine ⟨_, _, _, pairBits s.out p, _, bridgeTarget c,
    exec_bridge_done hs (pairOfCode_name p) (bridgeCommandOfCode_name c) hx, trace_committed_twice s _ _ _, rfl, rfl,
    htarget.symm, rfl, hmid, fun j hlo hhi => setChannel_pair_frame _ p _ _ hlo hhi, bridgeMid_third_iff _ c hmid⟩

end Sys2Proof.Machine
end

section
/-! SUPPORT. The command MANV (42_maneuver): its eight commits around the hold, the latch in which they end and
the pin trace they leave. -/

namespace Sys2Proof.Machine

/-! ### The command -/

/-- A configured MANV is its maneuver and a plain response (42_maneuver R162). -/
theorem exec_manv_eq {s : State} (a : Byte) (hs : s.running) :
    exec (.manv a) s = .next (runSteps (maneuverSteps (maneuverOfCode a) ++ [respondPlain])
      (s.inProgress (.manv a) 0 .idle)).settle := by
  obtain ⟨hh, hd⟩ := hs
  have hplan : planOf s.cfg (.manv a)
      = straightPlan (whenConfigured none) (maneuverSteps (maneuverOfCode a) ++ [respondPlain]) := rfl
  rw [exec_run hh (by simp [hplan, straightPlan, whenConfigured, hd]), hplan, runPlan_straight]

/-- A MANV whose eight commits succeed (42_maneuver R162). -/
theorem exec_manv_done {s : State} (a : Byte) (hs : s.running) (hx : s.exchangesSucceed 8) :
    exec (.manv a) s = .next ((s.maneuvered (maneuverOfCode a)).answered (plainResponse 0#4 s.err)) := by
  rw [exec_manv_eq a hs, runSteps_maneuver_done _ _ _ _ _ rfl _ hx, runSteps_cons, respondPlain,
    perform_respond _ rfl]
  rfl

/-- A MANV whose commit `k`, from 0, is the first to fail (42_maneuver R166). -/
theorem exec_manv_failed {s : State} (a : Byte) (hs : s.running) {k : Nat} (hk : k < 8)
    (hx : s.exchangesSucceed k) (hf : exchangeSucceeds (s.exchangeAt k) = false) :
    exec (.manv a) s = .next (takeFault .deviceUnavailable (s.maneuverFailed (maneuverOfCode a) k)) := by
  obtain ⟨n, hn⟩ := runSteps_maneuver_failed (maneuverOfCode a) [respondPlain] (.manv a) 0 .idle rfl s k hk hx hf
  rw [exec_manv_eq a hs, hn, settle_raised]

/-- Settles O28: a configured MANV passes its check, and its maneuver runs to its end or to its first failed commit. -/
theorem manvWhole : Obligations.ManvWhole :=
  ⟨fun a => by simp [encode, mkWord], fun _ a hs =>
    ⟨exec_manv_done a hs, fun _ hk hx hf => exec_manv_failed a hs hk hx hf⟩⟩

/-- A configured MANV that ends without fault has made its eight commits. -/
theorem exec_manv_unfaulted {s t : State} {a : Byte} (hs : s.running) (h : exec (.manv a) s = .next t)
    (ht : t.halted = false) :
    t = (s.maneuvered (maneuverOfCode a)).answered (plainResponse 0#4 s.err) := by
  rcases exchangesSucceed_or_first_failed s 8 with hx | ⟨k, hk, hx, hf⟩
  · rw [exec_manv_done a hs hx] at h
    cases h
    rfl
  · rw [exec_manv_failed a hs hk hx hf] at h
    cases h
    simp at ht

/-! ### The latch after a maneuver, and its pin trace -/

/-- The last commit leaves pairs A and B in COAST and pair C as it was (42_maneuver R165). -/
theorem maneuverValue_last (o : Latch) (m : Maneuver) : maneuverValue o m 7 = o.extractLsb' 4 2 ++ 0#4 := by
  cases m <;> revert o <;> decide

@[simp] theorem maneuvered_out (s : State) (m : Maneuver) : (s.maneuvered m).out = s.out.extractLsb' 4 2 ++ 0#4 :=
  maneuverValue_last s.out m

/-- No commit of a maneuver writes pair C, and the bits of pairs A and B do not depend on it (42_maneuver R169 a). -/
theorem maneuverValues_pairC (cc : BitVec 2) (v : BitVec 4) (m : Maneuver) :
    maneuverValues (cc ++ v) m = (maneuverValues (0#2 ++ v) m).map fun u => cc ++ u.extractLsb' 0 4 := by
  cases m <;> revert cc v <;> decide

@[simp] theorem committedAll_ticks (s : State) (vs : List Latch) : (s.committedAll vs).ticks = s.ticks := by
  induction vs generalizing s with
  | nil => rfl
  | cons v vs ih => exact ih (s.committed v)

/-- Commits leave an entry each, all at one tick. -/
theorem committedAll_trace (s : State) (vs : List Latch) :
    (s.committedAll vs).trace = s.trace ++ vs.map fun v => ⟨.driven v, s.ticks⟩ := by
  induction vs generalizing s with
  | nil => exact (List.append_nil _).symm
  | cons v vs ih => exact (ih (s.committed v)).trans (List.append_assoc ..)

/-- A maneuver leaves four entries at its first tick and four when the hold is over (42_maneuver R164). -/
theorem maneuvered_trace (s : State) (m : Maneuver) :
    (s.maneuvered m).trace = s.trace
      ++ ((maneuverValues s.out m).take 4).map (fun v => ⟨.driven v, s.ticks⟩)
      ++ ((maneuverValues s.out m).drop 4).map (fun v => ⟨.driven v, s.ticks + s.cfg.cmdDelay⟩) := by
  have hparts : s.maneuvered m = ((s.committedAll ((maneuverValues s.out m).take 4)).waited
      s.cfg.cmdDelay).committedAll ((maneuverValues s.out m).drop 4) := rfl
  simp only [hparts, committedAll_trace, State.waited_trace, State.waited_ticks, committedAll_ticks]

/-- Settles O29: an end without fault rules out a failed commit, and the eight commits are around the hold. -/
theorem maneuverEndsInCoast : Obligations.ManeuverEndsInCoast := by
  intro s t a hs h ht
  obtain rfl := exec_manv_unfaulted hs h ht
  rw [State.answered_out, State.answered_trace, maneuvered_out, maneuvered_trace, List.append_assoc]
  exact ⟨BitVec.extractLsb'_append_eq_right, BitVec.extractLsb'_append_eq_left, rfl, _, rfl, rfl⟩

theorem maneuverOfCode_name (m : Maneuver) : maneuverOfCode (ManeuverOperand.name m).code = m := by cases m <;> rfl

/-- Settles O30: the table is that of pair C at 0, and pair C's bits stand in every entry. -/
theorem maneuverTraceTable : Obligations.ManeuverTraceTable := by
  intro s cc m hs hx ho
  refine ⟨_, exec_manv_done _ hs hx, ?_⟩
  rw [State.answered_trace, maneuverOfCode_name, maneuvered_trace, ho, maneuverValues_pairC]
  cases m <;> rfl

end Sys2Proof.Machine
end

section
/-! SUPPORT. The commands CONTICK (43_loops): what a key asks for, the device writes of its action, and the sample
and its counting after them. -/

namespace Sys2Proof.Machine

/-! ### What a key can ask for -/

/-- A letter of KEYMAP_BC drives a pair; every other one asks for nothing. -/
theorem dispatchKeymap_cases (k : Keymap) (l : Byte) :
    dispatchKeymap k l = .noAction ∨ ∃ p c, dispatchKeymap k l = .bridge p c := by
  unfold dispatchKeymap
  split_ifs <;> simp

/-- A letter drives a pair, quits or asks for nothing. -/
theorem dispatchLetter_cases (k : Keymap) (l : Byte) :
    dispatchLetter k l = .noAction ∨ dispatchLetter k l = .quit ∨ ∃ p c, dispatchLetter k l = .bridge p c := by
  unfold dispatchLetter
  split
  case h_5 => exact .inr (.inl rfl)
  case h_6 => exact (dispatchKeymap_cases k l).imp_right .inr
  all_goals exact .inr (.inr ⟨_, _, rfl⟩)

/-- Toggles are of output channels, and only key '0' resets the counters (30_encoding R78). -/
theorem dispatchKey_cases (k : Keymap) (key : Byte) :
    (key = 0x30#8 ∧ dispatchKey k key = .resetCounters)
      ∨ (∃ i, i ≤ 5 ∧ dispatchKey k key = .toggleChannel i)
      ∨ dispatchKey k key = .noAction ∨ dispatchKey k key = .quit ∨ ∃ p c, dispatchKey k key = .bridge p c := by
  unfold dispatchKey
  split
  · exact .inr (.inr (dispatchLetter_cases k _))
  · split
    case h_1 h => exact .inl ⟨BitVec.eq_of_toNat_eq h, rfl⟩
    case h_8 => exact .inr (.inr (.inr (.inl rfl)))
    case h_9 => exact .inr (.inr (.inl rfl))
    all_goals exact .inr (.inl ⟨_, by decide, rfl⟩)

/-! ### The device writes of an action -/

/-- The channel writes of a dispatched action from the latch `o` (43_loops R190). -/
def actionWrites (o : Latch) : KeyAction → List (Nat × Bool)
  | .toggleChannel i => [(i, !o.getLsbD i)]
  | .bridge p c => bridgeWrites p c
  | .resetCounters => []
  | .quit => []
  | .noAction => []

/-- The latch values those writes commit. -/
def actionValues (o : Latch) (action : KeyAction) : List Latch := channelValues o (actionWrites o action)

/-- The channels an action writes are output channels, whatever the latch. -/
def WritesOutputs (action : KeyAction) : Prop := ∀ o, ∀ w ∈ actionWrites o action, w.1 ≤ 5

theorem dispatchKey_writesOutputs (k : Keymap) (key : Byte) : WritesOutputs (dispatchKey k key) := by
  intro o
  rcases dispatchKey_cases k key with ⟨-, h⟩ | ⟨i, hi, h⟩ | h | h | ⟨p, c, h⟩ <;> rw [h]
  · exact List.forall_mem_nil _
  · exact List.forall_mem_singleton.mpr hi
  · exact List.forall_mem_nil _
  · exact List.forall_mem_nil _
  · exact bridgeWrites_channels p c

/-- A toggle does what the channel call for the complement of the channel does (40_port R114). -/
theorem perform_channelToggle {i : Nat} (hi : i ≤ 5) (s : State) :
    perform (channelToggle i) s = perform (channelWrite i (!s.out.getLsbD i)) s := by
  have he : enterMicro (channelToggle i) s = enterMicro (channelWrite i (!s.out.getLsbD i)) s := by
    simp only [enterMicro, channelToggle, channelWrite, portWrite, List.foldl_cons, List.foldl_nil,
      applyUpdate_toggle s i hi, applyUpdate_channelLatch s hi]
  exact congrArg (fun t => (commit t).andThen fun u => .going u.advance) he

/-- The device writes of an action are channel writes. -/
theorem runSteps_actionSteps {action : KeyAction} (hw : WritesOutputs action) (rest : List MicroStep) (s : State) :
    runSteps (actionSteps action ++ rest) s = runSteps (channelSteps (actionWrites s.out action) ++ rest) s := by
  cases action with
  | toggleChannel i =>
    exact congrArg (Flow.andThen · (runSteps rest))
      (perform_channelToggle (hw s.out _ (List.mem_singleton.mpr rfl)) s)
  | _ => rfl

/-! ### A console cycle -/

/-- `s` after the device writes of an action, all committed, and its update of the counters (43_loops R190). -/
def State.acted (action : KeyAction) (s : State) : State :=
  match action with
  | .resetCounters => (s.committedAll (actionValues s.out action)).countersCleared
  | .toggleChannel _ => s.committedAll (actionValues s.out action)
  | .bridge _ _ => s.committedAll (actionValues s.out action)
  | .quit => s.committedAll (actionValues s.out action)
  | .noAction => s.committedAll (actionValues s.out action)

/-- The hidden values of a console cycle, which waits only in its sleep. -/
def consoleHidden (sample : Option Sensors) (quit : Bool) : Hidden := ⟨none, sample, 0, quit⟩

theorem foldl_actionUpdates (action : KeyAction) (s : State) (c : Instr) (k : Nat) :
    (actionUpdates action).foldl applyUpdate ((s.committedAll (actionValues s.out action)).inProgress c k .idle)
      = (s.acted action).inProgress c k (consoleHidden none (action == .quit)) := by
  cases action <;> rfl

/-- The exchange of a cycle's sample comes after those of its device writes. -/
theorem exchangeAt_acted (action : KeyAction) (s : State) (n : Nat) :
    (s.acted action).exchangeAt n = s.exchangeAt ((actionWrites s.out action).length + n) := by
  have h := exchangeAt_committedAll (actionValues s.out action) s n
  rw [actionValues, channelValues_length] at h
  cases action <;> exact h

theorem cycleEnd_of_ne_quit {action : KeyAction} (h : action ≠ .quit) :
    cycleEnd action = ⟨[.count], .wait .con⟩ := by
  cases action with
  | quit => exact absurd rfl h
  | _ => rfl

/-- The port write of ZEROALL and of Quit's exit cleanup clears the latch. -/
theorem mergeLatch_zero (o : Latch) : mergeLatch o 0x3F#8 0#8 = 0#6 := by revert o; decide

theorem exchangesSucceed_zero (s : State) : s.exchangesSucceed 0 := fun _ hn => absurd hn (Nat.not_lt_zero _)

theorem exchangesSucceed_one {s : State} (h : exchangeSucceeds (s.exchangeAt 0) = true) : s.exchangesSucceed 1 :=
  fun n hn => by rwa [Nat.lt_one_iff.mp hn]

/-- Command `i` is a console cycle that performs `action`, on a running controller. -/
structure ConsoleCycle (i : Instr) (action : KeyAction) (s : State) : Prop where
  running : s.running
  plan : planOf s.cfg i = consolePlan action
  outputs : WritesOutputs action

theorem consoleCycle_contick {s : State} (hs : s.running) : ConsoleCycle .contick .noAction s :=
  ⟨hs, rfl, fun _ => List.forall_mem_nil _⟩

theorem consoleCycle_contickKey {s : State} {key : Byte} {action : KeyAction} (hs : s.running)
    (hk : dispatchKey s.cfg.keymap key = action) : ConsoleCycle (.contickKey key) action s :=
  ⟨hs, congrArg consolePlan hk, hk ▸ dispatchKey_writesOutputs _ _⟩

namespace ConsoleCycle

/-- The device writes of the action, the sample, what follows it, and the report. -/
theorem exec_eq {i : Instr} {action : KeyAction} {s : State} (h : ConsoleCycle i action s) :
    exec i s = .next (runSteps (channelSteps (actionWrites s.out action)
      ++ [⟨actionUpdates action, .sample⟩, cycleEnd action, ⟨[], .respond .console⟩])
        (s.inProgress i 0 .idle)).settle := by
  obtain ⟨hh, hd⟩ := h.running
  rw [exec_run hh (by rw [h.plan, hd]; rfl), h.plan, consolePlan, runPlan_straight, runSteps_actionSteps h.outputs]
  rfl

/-- Commit `j` of the device writes, from 0, is the first to fail. -/
theorem exec_writeFailed {i : Instr} {action : KeyAction} {s : State} (h : ConsoleCycle i action s) {j : Nat}
    (hj : j < (actionWrites s.out action).length) (hx : s.exchangesSucceed j)
    (hf : exchangeSucceeds (s.exchangeAt j) = false) :
    exec i s = .next (takeFault .deviceUnavailable
      ((s.committedAll ((actionValues s.out action).take j)).commitFailed
        (((actionValues s.out action)[j]?).getD 0#6))) := by
  rw [h.exec_eq, runSteps_channelSteps_failed _ (h.outputs _) _ _ _ _ rfl _ j hj hx hf, settle_raised, actionValues]

section
variable {i : Instr} {action : KeyAction} {s : State} (h : ConsoleCycle i action s)
  (hx : s.exchangesSucceed (actionWrites s.out action).length)
include h hx

/-- The device writes succeed, and the sample is due. -/
theorem exec_acted : ∃ k, exec i s = .next (runSteps
    [⟨actionUpdates action, .sample⟩, cycleEnd action, ⟨[], .respond .console⟩]
      ((s.committedAll (actionValues s.out action)).inProgress i k .idle)).settle :=
  ⟨_, by rw [h.exec_eq, runSteps_channelSteps_done _ (h.outputs _) _ _ _ _ rfl _ hx, ← actionValues]⟩

/-- The device writes succeed and the sample fails. -/
theorem exec_sampleFailed (hf : s.exchangeAt (actionWrites s.out action).length = .failed) :
    exec i s = .next (takeFault .deviceUnavailable (s.acted action).exchangeLost) := by
  obtain ⟨k, hk⟩ := h.exec_acted hx
  rw [hk, runSteps_cons, perform_sample_failed rfl (foldl_actionUpdates action s i k)
    (by rw [exchangeAt_acted]; exact congrArg exchangeSucceeds hf), andThen_raised, settle_raised]

variable {p : Sensors} (hp : s.exchangeAt (actionWrites s.out action).length = .done p)
include hp

/-- The device writes and the sample succeed, and what follows the sample is due. -/
theorem exec_sampled : ∃ k, exec i s = .next (runSteps [cycleEnd action, ⟨[], .respond .console⟩]
    ((s.acted action).sampledOnce.inProgress i k (consoleHidden (some p) (action == .quit)))).settle := by
  obtain ⟨k, hk⟩ := h.exec_acted hx
  exact ⟨k + 1, by rw [hk, runSteps_cons, perform_sample_done rfl (foldl_actionUpdates action s i k)
    (by rw [exchangeAt_acted]; exact hp), andThen_going]; rfl⟩

/-- Without Quit a cycle counts its sample, sleeps and reports (43_loops R190). -/
theorem exec_slept (hq : action ≠ .quit) :
    exec i s = .next ((((s.acted action).sampledOnce.counted p).waited (s.acted action).cfg.conDelay).answered
      (((s.acted action).counted p).consoleReport p false)) := by
  obtain ⟨k, hk⟩ := h.exec_sampled hx hp
  rw [hk, cycleEnd_of_ne_quit hq, runSteps_cons,
    perform_wait (t := (s.acted action).sampledOnce.counted p) .con rfl rfl rfl, andThen_going, runSteps_cons,
    perform_respond _ rfl, beq_false_of_ne hq]
  rfl

end

/-- On Quit a cycle counts its sample and clears the outputs in one commit (43_loops R195). -/
theorem exec_quit {i : Instr} {s : State} {p : Sensors} (h : ConsoleCycle i .quit s) (hp : s.exchangeAt 0 = .done p) :
    (exchangeSucceeds (s.exchangeAt 1) = true →
        exec i s = .next (((s.sampledOnce.counted p).committed 0#6).answered ((s.counted p).consoleReport p true)))
      ∧ (exchangeSucceeds (s.exchangeAt 1) = false →
        exec i s = .next (takeFault .deviceUnavailable ((s.sampledOnce.counted p).commitFailed 0#6))) := by
  obtain ⟨k, hk⟩ : ∃ k, exec i s = .next (runSteps
      [⟨[.count, .latch 0x3F#8 0x00#8], .commit⟩, ⟨[], .respond .console⟩]
        (s.sampledOnce.inProgress i k (consoleHidden (some p) true))).settle :=
    h.exec_sampled (exchangesSucceed_zero s) hp
  have hu : [RegUpdate.count, .latch 0x3F#8 0x00#8].foldl applyUpdate
      (s.sampledOnce.inProgress i k (consoleHidden (some p) true))
        = ({ s.sampledOnce.counted p with out := 0#6 } : State).inProgress i k (consoleHidden (some p) true) := by
    rw [← mergeLatch_zero s.out]; rfl
  have hat : ({ s.sampledOnce.counted p with out := 0#6 } : State).exchangeAt 0 = s.exchangeAt 1 :=
    exchangeAt_sampledOnce s 0
  rw [hk, runSteps_cons, ← hat]
  refine ⟨fun hx => ?_, fun hf => ?_⟩
  · rw [perform_commit_done rfl hu hx, andThen_going, runSteps_cons, perform_respond _ rfl]; rfl
  · rw [perform_commit_failed rfl hu hf, andThen_raised, settle_raised]; rfl

end ConsoleCycle

/-! ### The statements of a cycle -/

/-- Settles O34: a cycle without an action. -/
theorem contickWhole : Obligations.ContickWhole := by
  intro s hs
  have h := consoleCycle_contick hs
  have hx := exchangesSucceed_zero s
  exact ⟨fun p hp => h.exec_slept hx hp (by decide), fun hf => h.exec_sampleFailed hx hf⟩

/-- Settles O35: what an action leaves before the sample, then the sleep or Quit's commit. -/
theorem contickKeyCompletes : Obligations.ContickKeyCompletes := by
  intro s key p hs
  have cycle {action : KeyAction} (hk : dispatchKey s.cfg.keymap key = action) := consoleCycle_contickKey hs hk
  have hx := exchangesSucceed_zero s
  refine ⟨fun hk hp => ?_, fun hk hp => ?_, ?_, ?_, fun hk hp => ?_⟩
  · exact (cycle hk).exec_slept hx hp (by decide)
  · exact (cycle hk).exec_slept hx hp (by decide)
  · rintro i v hk rfl hx hp
    exact (cycle hk).exec_slept hx hp nofun
  · rintro q c v1 v2 hk rfl rfl hx hp
    exact (cycle hk).exec_slept hx hp nofun
  · exact ((cycle hk).exec_quit hp).1

/-- Settles O36: a cycle can fail at each device write, at its sample, and at Quit's commit. -/
theorem contickKeyAborts : Obligations.ContickKeyAborts := by
  intro s key hs
  have cycle {action : KeyAction} (hk : dispatchKey s.cfg.keymap key = action) := consoleCycle_contickKey hs hk
  have hx := exchangesSucceed_zero s
  refine ⟨fun hk hf => ?_, fun hk hf => ?_, ?_, ?_, fun hk => ⟨fun hf => ?_, fun p hp => ?_⟩⟩
  · exact (cycle hk).exec_sampleFailed hx hf
  · exact (cycle hk).exec_sampleFailed hx hf
  · rintro i v hk rfl
    refine ⟨fun hf => ?_, fun h0 hf => ?_⟩
    · exact (cycle hk).exec_writeFailed (j := 0) Nat.zero_lt_one hx hf
    · exact (cycle hk).exec_sampleFailed (exchangesSucceed_one h0) hf
  · rintro q c v1 v2 hk rfl rfl
    refine ⟨fun hf => ?_, fun h0 hf => ?_, fun h2 hf => ?_⟩
    · exact (cycle hk).exec_writeFailed (j := 0) Nat.zero_lt_two hx hf
    · exact (cycle hk).exec_writeFailed (j := 1) Nat.one_lt_two (exchangesSucceed_one h0) hf
    · exact (cycle hk).exec_sampleFailed h2 hf
  · exact (cycle hk).exec_sampleFailed hx hf
  · exact ((cycle hk).exec_quit hp).2

/-- A counter at 0, counted once, shows whether its channel reads low: a legal width holds a 1 (43_loops R194). -/
theorem countUp_zero {cfg : Config} (h : cfg.legal = true) (high : Bool) :
    (if high then 0 else countUp cfg.cntWidth 0) = 1 - high.toNat := by
  have hw : ∀ w, cfg.cntWidth = some w → 1 ≤ w := by
    intro w hw
    simpa [Config.legal, hw] using (Bool.and_eq_true_iff.mp h).2
  have hone : countUp cfg.cntWidth 0 = 1 := by
    cases hc : cfg.cntWidth with
    | none => rfl
    | some w =>
      have : 2 ^ 1 ≤ 2 ^ w := Nat.pow_le_pow_right (by decide) (hw w hc)
      simp only [countUp]
      omega
  cases high with
  | true => rfl
  | false => exact hone

/-- Settles O37: the cycle of key '0' counts its sample from 0. -/
theorem resetCountersReport : Obligations.ResetCountersReport := by
  intro s p hs hl hp
  obtain ⟨-, hreset, -⟩ := contickKeyCompletes s 0x30#8 p hs
  refine ⟨_, _, hreset rfl hp, rfl, ?_, ?_, rfl, rfl⟩
  · exact countUp_zero hl _
  · exact countUp_zero hl _

/-- Settles O39: both commands make the two channel calls, and after them the cycle's sample re-drives the pins. -/
theorem bridgeKeyActsAsBridge : Obligations.BridgeKeyActsAsBridge := by
  intro s key p c hs hx hk
  obtain ⟨q, hq⟩ := exchange_done_of_succeeds (hx 2 (by decide))
  have hx2 : s.exchangesSucceed 2 := exchangesSucceed_mono hx (by decide)
  exact ⟨_, _, (consoleCycle_contickKey hs hk).exec_slept hx2 hq nofun,
    exec_bridge_done hs (pairOfCode_name p) (bridgeCommandOfCode_name c) hx2, rfl, rfl, rfl⟩

/-! ### The faults of a command under way -/

/-- Micro-steps go on with HALTED as it was, or raise DeviceUnavailable: an exchange is all that fails in them. -/
theorem runSteps_cases (l : List MicroStep) (s : State) :
    (∃ t, runSteps l s = .going t ∧ t.halted = s.halted) ∨ ∃ t, runSteps l s = .raised .deviceUnavailable t := by
  induction l generalizing s with
  | nil => exact .inl ⟨s, rfl, rfl⟩
  | cons m ms ih =>
    rw [runSteps_cons]
    have hnext {t : State} (hp : perform m s = .going t) (ht : t.halted = s.halted) :
        (∃ u, (perform m s).andThen (runSteps ms) = .going u ∧ u.halted = s.halted)
          ∨ ∃ u, (perform m s).andThen (runSteps ms) = .raised .deviceUnavailable u := by
      rw [hp, ← ht]; exact ih t
    rcases perform_cases m s with ⟨-, hp⟩ | ⟨-, hp⟩ | ⟨-, p, hp⟩ | ⟨d, -, hp⟩ | ⟨r, -, hp⟩
    · exact .inr ⟨_, by rw [hp]; rfl⟩
    · exact hnext hp (by simp)
    · exact hnext hp (by simp)
    · exact hnext hp (by simp)
    · exact hnext hp (enterMicro_halted m s)

/-- A console cycle faults only at an exchange. -/
theorem ConsoleCycle.fault_device {i : Instr} {action : KeyAction} {s t : State} (h : ConsoleCycle i action s)
    (ht : exec i s = .next t) : t.halted = false ∨ t.err = FaultCode.code .deviceUnavailable := by
  obtain rfl := Host.Outcome.next.inj (h.exec_eq.symm.trans ht)
  rcases runSteps_cases _ (s.inProgress i 0 .idle) with ⟨u, hu, hh⟩ | ⟨u, hu⟩
  · rw [hu]; exact .inl (hh.trans h.running.1)
  · rw [hu]; exact .inr (takeFault_err _ u)

/-- Settles O45: a cycle's checks look at the configuration alone, which is set. -/
theorem consoleFaultsOnlyByDevice : Obligations.ConsoleFaultsOnlyByDevice := by
  rintro s t i hs (rfl | ⟨key, rfl⟩) ht
  · exact (consoleCycle_contick hs).fault_device ht
  · exact (consoleCycle_contickKey hs rfl).fault_device ht

end Sys2Proof.Machine
end

section
/-! SUPPORT. The command NAVTICK (43_loops R181): its sample, the maneuvers the sample asks for, what they cost and
what they look at. -/

namespace Sys2Proof.Machine

/-! ### Maneuvers in a row -/

@[simp] theorem maneuvered_cfg (s : State) (m : Maneuver) : (s.maneuvered m).cfg = s.cfg := rfl
@[simp] theorem maneuvered_err (s : State) (m : Maneuver) : (s.maneuvered m).err = s.err := rfl
@[simp] theorem maneuvered_draws (s : State) (m : Maneuver) : (s.maneuvered m).draws = s.draws + 8 := rfl
@[simp] theorem maneuvered_ticks (s : State) (m : Maneuver) : (s.maneuvered m).ticks = s.ticks + s.cfg.cmdDelay := rfl

theorem maneuveredAll_cons (s : State) (m : Maneuver) (ms : List Maneuver) :
    s.maneuveredAll (m :: ms) = (s.maneuvered m).maneuveredAll ms := rfl

@[simp] theorem maneuveredAll_cfg (s : State) (ms : List Maneuver) : (s.maneuveredAll ms).cfg = s.cfg := by
  induction ms generalizing s with
  | nil => rfl
  | cons m ms ih => exact ih (s.maneuvered m)

@[simp] theorem maneuveredAll_err (s : State) (ms : List Maneuver) : (s.maneuveredAll ms).err = s.err := by
  induction ms generalizing s with
  | nil => rfl
  | cons m ms ih => exact ih (s.maneuvered m)

/-- Eight exchanges each. -/
@[simp] theorem maneuveredAll_draws (s : State) (ms : List Maneuver) :
    (s.maneuveredAll ms).draws = s.draws + 8 * ms.length := by
  induction ms generalizing s with
  | nil => rfl
  | cons m ms ih => rw [maneuveredAll_cons, ih, maneuvered_draws, List.length_cons]; omega

/-- A hold each (42_maneuver R164). -/
@[simp] theorem maneuveredAll_ticks (s : State) (ms : List Maneuver) :
    (s.maneuveredAll ms).ticks = s.ticks + ms.length * s.cfg.cmdDelay := by
  induction ms generalizing s with
  | nil => simp [State.maneuveredAll]
  | cons m ms ih => rw [maneuveredAll_cons, ih, maneuvered_ticks, maneuvered_cfg, List.length_cons]; ring

theorem maneuverValues_length (o : Latch) (m : Maneuver) : (maneuverValues o m).length = 8 := rfl

/-- Eight entries of the pin trace each. -/
theorem maneuveredAll_trace (s : State) (ms : List Maneuver) :
    ∃ es, (s.maneuveredAll ms).trace = s.trace ++ es ∧ es.length = 8 * ms.length := by
  induction ms generalizing s with
  | nil => exact ⟨[], (List.append_nil _).symm, rfl⟩
  | cons m ms ih =>
    obtain ⟨es, he, hl⟩ := ih (s.maneuvered m)
    rw [maneuvered_trace, List.append_assoc, List.append_assoc] at he
    exact ⟨_, he, by simp [maneuverValues_length, hl]; omega⟩

/-- Pairs A and B end in COAST, and pair C as it was (42_maneuver R165). -/
theorem maneuveredAll_out (s : State) {ms : List Maneuver} (h : ms ≠ []) :
    (s.maneuveredAll ms).out = s.out.extractLsb' 4 2 ++ 0#4 := by
  induction ms generalizing s with
  | nil => exact absurd rfl h
  | cons m ms ih =>
    cases ms with
    | nil => exact maneuvered_out s m
    | cons m' ms =>
      rw [maneuveredAll_cons, ih _ (List.cons_ne_nil _ _), maneuvered_out, BitVec.extractLsb'_append_eq_left]

/-! ### The cycle -/

/-- The end of a cycle: sleep LOOP_DELAY and report the sample (43_loops R181). -/
def navEnd : List MicroStep := [⟨[], .wait .loop⟩, ⟨[], .respond .sense⟩]

/-- The hidden values of a navigation cycle once it has its sample. -/
def navHidden (p : Sensors) : Hidden := { Hidden.idle with sample := some p }

/-- A configured NAVTICK: its sample, the maneuvers for the sample, and the end. -/
theorem exec_navtick_eq {s : State} (hs : s.running) :
    exec .navtick s = .next ((perform ⟨[], .sample⟩ (s.inProgress .navtick 0 .idle)).andThen fun t =>
      runSteps ((cycleSegments t.sampled).flatMap segmentSteps ++ navEnd) t).settle := by
  obtain ⟨hh, hd⟩ := hs
  rw [exec_run hh (by rw [hd]; rfl)]
  simp only [← navActions_eq]
  show Host.Outcome.next (((perform ⟨[], .sample⟩ _).andThen .going).andThen _).settle = _
  cases perform ⟨[], .sample⟩ (s.inProgress .navtick 0 .idle) <;> rfl

/-- A NAVTICK whose sample fails. -/
theorem exec_navtick_sampleFailed {s : State} (hs : s.running) (hf : s.exchangeAt 0 = .failed) :
    exec .navtick s = .next (takeFault .deviceUnavailable s.exchangeLost) := by
  rw [exec_navtick_eq hs, perform_sample_failed (t := s) rfl rfl (congrArg exchangeSucceeds hf), andThen_raised,
    settle_raised]

/-- A NAVTICK whose sample succeeds runs the maneuvers for the sample, and its end. -/
theorem exec_navtick_sampled {s : State} {p : Sensors} (hs : s.running) (hp : s.exchangeAt 0 = .done p) :
    exec .navtick s = .next (runSteps ((cycleSegments p).flatMap segmentSteps ++ navEnd)
      (s.sampledOnce.inProgress .navtick 1 (navHidden p))).settle := by
  rw [exec_navtick_eq hs, perform_sample_done (t := s) rfl rfl hp]
  rfl

/-- A NAVTICK whose exchanges all succeed (43_loops R181). -/
theorem exec_navtick_done {s : State} {p : Sensors} (hs : s.running) (hp : s.exchangeAt 0 = .done p)
    (hx : s.exchangesSucceed (1 + 8 * (cycleManeuvers p).length)) :
    exec .navtick s = .next (((s.sampledOnce.maneuveredAll (cycleManeuvers p)).waited s.cfg.loopDelay).answered
      ⟨0#4, s.err, 0#8, p, 0, 0, false⟩) := by
  rw [← cycleSegments_maneuvers, List.length_map, Nat.add_comm] at hx
  obtain ⟨b, hb⟩ := runSteps_segments_done (cycleSegments p) navEnd .navtick 1 (navHidden p) rfl s.sampledOnce
    (exchangesSucceed_sampledOnce hx)
  rw [exec_navtick_sampled hs hp, hb, cycleSegments_maneuvers, navEnd, runSteps_cons, perform_wait .loop rfl rfl rfl,
    andThen_going, runSteps_cons, perform_respond _ rfl, maneuveredAll_cfg]
  have herr : (s.sampledOnce.maneuveredAll (cycleManeuvers p)).err = s.err := maneuveredAll_err _ _
  rw [← herr]
  rfl

/-- A NAVTICK of which commit `k` of maneuver `m` is the first exchange to fail (42_maneuver R166). -/
theorem exec_navtick_failed {s : State} {p : Sensors} {done rest : List Maneuver} {m : Maneuver} {k : Nat}
    (hs : s.running) (hp : s.exchangeAt 0 = .done p) (hms : cycleManeuvers p = done ++ m :: rest) (hk : k < 8)
    (hx : s.exchangesSucceed (1 + 8 * done.length + k))
    (hf : exchangeSucceeds (s.exchangeAt (1 + 8 * done.length + k)) = false) :
    exec .navtick s
      = .next (takeFault .deviceUnavailable ((s.sampledOnce.maneuveredAll done).maneuverFailed m k)) := by
  obtain ⟨gs, gs₂, hsplit, rfl, hg⟩ := List.map_eq_append_iff.mp ((cycleSegments_maneuvers p).trans hms)
  obtain ⟨g, gs', rfl, rfl, -⟩ := List.map_eq_cons_iff.mp hg
  rw [List.length_map, Nat.add_assoc] at hx hf
  obtain ⟨k', h', hrun⟩ := runSteps_segments_failed gs g gs' navEnd .navtick 1 (navHidden p) rfl s.sampledOnce k hk
    (exchangesSucceed_sampledOnce (by rwa [Nat.add_comm])) (by rwa [exchangeAt_sampledOnce])
  rw [exec_navtick_sampled hs hp, hsplit, hrun, settle_raised]

/-- Settles O31: the sample decides the maneuvers, and each of their commits is the first to fail or none. -/
theorem navtickWhole : Obligations.NavtickWhole :=
  ⟨by decide, fun _ hs => ⟨exec_navtick_sampleFailed hs, fun _ hp hx => exec_navtick_done hs hp hx,
    fun _ _ _ _ _ hp hms hk hx hf => exec_navtick_failed hs hp hms hk hx hf⟩⟩

/-- What a completed cycle of `n` maneuvers costs, and the latch in which it ends (43_loops R183 to R185). -/
theorem exec_navtick_counts {s : State} {p : Sensors} {n : Nat} (hs : s.running) (hp : s.exchangeAt 0 = .done p)
    (hn : (cycleManeuvers p).length = n + 1) (hx : s.exchangesSucceed (1 + 8 * (n + 1))) :
    ∃ t es, exec .navtick s = .next t ∧ t.trace = s.trace ++ es ∧ es.length = 8 * (n + 1)
      ∧ t.draws = s.draws + (1 + 8 * (n + 1)) ∧ t.ticks = s.ticks + ((n + 1) * s.cfg.cmdDelay + s.cfg.loopDelay)
      ∧ t.out.extractLsb' 0 4 = 0#4 ∧ t.out.extractLsb' 4 2 = s.out.extractLsb' 4 2 := by
  have hne : cycleManeuvers p ≠ [] := List.ne_nil_of_length_eq_add_one hn
  obtain ⟨es, htrace, hes⟩ := maneuveredAll_trace s.sampledOnce (cycleManeuvers p)
  refine ⟨_, es, exec_navtick_done hs hp (hn ▸ hx), htrace, hn ▸ hes, ?_, ?_, ?_, ?_⟩
  · simp [hn, Nat.add_assoc]
  · simp [hn, Nat.add_assoc]
  · simp only [State.answered_out, State.waited_out, maneuveredAll_out _ hne, BitVec.extractLsb'_append_eq_right]
  · simp only [State.answered_out, State.waited_out, maneuveredAll_out _ hne, BitVec.extractLsb'_append_eq_left]
    rfl

/-- Settles O32: six maneuvers on a low sample, two on a high one. -/
theorem navtickCounts : Obligations.NavtickCounts := by
  intro s p hs hp
  refine ⟨fun hlow hx => ?_, fun hhigh hx => ?_⟩
  · exact exec_navtick_counts (n := 5) hs hp (by rw [cycleManeuvers, hlow]; rfl) hx
  · exact exec_navtick_counts (n := 1) hs hp (by rw [cycleManeuvers, hhigh]; rfl) hx

/-! ### What a cycle does not look at -/

/-- `s` with other counters and hidden values. -/
def State.recalled (c6 c7 : Nat) (h : Hidden) (s : State) : State := { s with cnt6 := c6, cnt7 := c7, hidden := h }

section
variable (c6 c7 : Nat) (h : Hidden) (s : State)

theorem committedAll_recalled (vs : List Latch) :
    (s.recalled c6 c7 h).committedAll vs = (s.committedAll vs).recalled c6 c7 h := by
  induction vs generalizing s with
  | nil => rfl
  | cons v vs ih => exact ih (s.committed v)

theorem maneuverPart_recalled (m : Maneuver) (k : Nat) :
    (s.recalled c6 c7 h).maneuverPart m k = (s.maneuverPart m k).recalled c6 c7 h := by
  have hw (t : State) (n : Nat) : (t.recalled c6 c7 h).waited n = (t.waited n).recalled c6 c7 h := rfl
  have ho : (s.recalled c6 c7 h).out = s.out := rfl
  have hc : (s.recalled c6 c7 h).cfg = s.cfg := rfl
  unfold State.maneuverPart
  rw [ho, hc, committedAll_recalled, committedAll_recalled, hw, committedAll_recalled]
  split <;> rfl

theorem maneuveredAll_recalled (ms : List Maneuver) :
    (s.recalled c6 c7 h).maneuveredAll ms = (s.maneuveredAll ms).recalled c6 c7 h := by
  induction ms generalizing s with
  | nil => rfl
  | cons m ms ih => exact (congrArg (·.maneuveredAll ms) (maneuverPart_recalled c6 c7 h s m 8)).trans (ih _)

theorem maneuverFailed_recalled (m : Maneuver) (k : Nat) :
    (s.recalled c6 c7 h).maneuverFailed m k = (s.maneuverFailed m k).recalled c6 c7 h := by
  unfold State.maneuverFailed
  rw [maneuverPart_recalled, maneuverPart_recalled]
  split <;> rfl

/-- Taking a fault discards the hidden values and keeps the counters (60_exceptions R220). -/
theorem takeFault_recalled (e : FaultCode) :
    takeFault e (s.recalled c6 c7 h) = { takeFault e s with cnt6 := c6, cnt7 := c7 } := by
  rcases faultCleanup_cases e s with ⟨hd, hc⟩ | ⟨hd, hx, hc⟩ | ⟨hd, hx, hc⟩
  · rw [takeFault, takeFault, hc, faultCleanup_unconfigured (s := s.recalled c6 c7 h) hd]; rfl
  · rw [takeFault, takeFault, hc, faultCleanup_done (s := s.recalled c6 c7 h) hd hx]; rfl
  · rw [takeFault, takeFault, hc, faultCleanup_failed (s := s.recalled c6 c7 h) hd hx]; rfl

end

/-- After a sample, the commits of some maneuvers all succeed, or there is a first one that fails. -/
theorem commitsSucceed_or_first_failed {s : State} (ms : List Maneuver)
    (h0 : exchangeSucceeds (s.exchangeAt 0) = true) :
    s.exchangesSucceed (1 + 8 * ms.length)
      ∨ ∃ done m rest k, ms = done ++ m :: rest ∧ k < 8 ∧ s.exchangesSucceed (1 + 8 * done.length + k)
          ∧ exchangeSucceeds (s.exchangeAt (1 + 8 * done.length + k)) = false := by
  refine (exchangesSucceed_or_first_failed s (1 + 8 * ms.length)).imp_right ?_
  rintro ⟨j, hj, hx, hf⟩
  have hj0 : j ≠ 0 := by
    rintro rfl
    simp [h0] at hf
  have hi : (j - 1) / 8 < ms.length := by omega
  have hlen : (ms.take ((j - 1) / 8)).length = (j - 1) / 8 := List.length_take_of_le hi.le
  have hsum : 1 + 8 * (ms.take ((j - 1) / 8)).length + (j - 1) % 8 = j := by omega
  refine ⟨ms.take ((j - 1) / 8), ms[(j - 1) / 8], ms.drop ((j - 1) / 8 + 1), (j - 1) % 8, ?_, by omega, ?_, ?_⟩
  · rw [← List.drop_eq_getElem_cons, List.take_append_drop]
  · rwa [hsum]
  · rwa [hsum]

/-- Settles O33: the sample's channel 6 and the successes of the exchanges decide the cycle, which carries the
counters through. -/
theorem navtickMemoryless : Obligations.NavtickMemoryless := by
  intro s p q rest c6 c7 h hs hpq
  let s₁ : State := { s with env := .done p :: rest }
  let s₂ : State := { s with env := .done q :: rest, cnt6 := c6, cnt7 := c7, hidden := h }
  have hms : cycleManeuvers q = cycleManeuvers p := by rw [cycleManeuvers, ← hpq]; rfl
  have hat : ∀ n, exchangeSucceeds (s₂.exchangeAt n) = exchangeSucceeds (s₁.exchangeAt n)
    | 0 => rfl
    | _ + 1 => rfl
  have hsucc {n : Nat} (hx : s₁.exchangesSucceed n) : s₂.exchangesSucceed n := fun k hk => (hat k).trans (hx k hk)
  have hrec : s₂.sampledOnce = s₁.sampledOnce.recalled c6 c7 h := rfl
  rcases commitsSucceed_or_first_failed (s := s₁) (cycleManeuvers p) rfl with
    hx | ⟨done, m, ms, k, hsplit, hk, hx, hf⟩
  · refine ⟨_, _, exec_navtick_done (s := s₁) hs rfl hx,
      exec_navtick_done (s := s₂) hs rfl (hms ▸ hsucc hx), ?_⟩
    rw [hrec, maneuveredAll_recalled, hms]
    rfl
  · refine ⟨_, _, exec_navtick_failed (s := s₁) hs rfl hsplit hk hx hf,
      exec_navtick_failed (s := s₂) hs rfl (hms.trans hsplit) hk (hsucc hx) ((hat _).trans hf), ?_⟩
    rw [hrec, maneuveredAll_recalled, maneuverFailed_recalled, takeFault_recalled]

end Sys2Proof.Machine
end

section
/-! SUPPORT. The counters CNT6 and CNT7 (43_loops R193, 10_state R28): which register updates write them, and what
that makes of a command. -/

namespace Sys2Proof.Machine

/-! ### What a command's register updates do to the counters -/

/-- The counters, with their width. -/
def State.tally (s : State) : Option Nat × Nat × Nat := (s.cfg.cntWidth, s.cnt6, s.cnt7)

/-- After its register updates a micro-step leaves the counters alone, also where a fault it raises is taken. -/
theorem perform_settle_tally (m : MicroStep) (s : State) : (perform m s).settle.tally = (enterMicro m s).tally := by
  rcases perform_cases m s with ⟨-, h⟩ | ⟨-, h⟩ | ⟨-, p, h⟩ | ⟨d, -, h⟩ | ⟨r, -, h⟩
  · simp [h, Flow.settle, State.tally]
  · simp [h, Flow.settle, State.tally]
  · simp [h, Flow.settle, State.tally]
  · simp [h, Flow.settle, State.tally]
  · rw [h]; rfl

section
variable {allowed : RegUpdate → Bool} {P : Option Nat × Nat × Nat → Prop}
  (hP : ∀ u, allowed u = true → ∀ s : State, P s.tally → P (applyUpdate s u).tally)
include hP

/-- What the allowed register updates keep of the counters, micro-steps with no other updates keep. -/
theorem runSteps_settle_tally {l : List MicroStep} (hl : l.all (fun m => m.pre.all allowed) = true) {s : State}
    (hs : P s.tally) : P (runSteps l s).settle.tally := by
  induction l generalizing s with
  | nil => exact hs
  | cons m ms ih =>
    rw [List.all_cons, Bool.and_eq_true] at hl
    obtain ⟨hm, hms⟩ := hl
    have hmicro : P (perform m s).settle.tally := by
      rw [perform_settle_tally]
      exact enterMicro_induction (P := fun t => P t.tally)
        (fun t u hu => hP u (List.all_eq_true.mp hm u hu) t) hs
    rw [runSteps_cons]
    cases hp : perform m s with
    | going t => exact ih hms (by rwa [hp] at hmicro)
    | raised e t => rwa [hp] at hmicro

theorem runPlan_settle_tally {p : Plan}
    (hp : ∀ smp, (p.head ++ p.tail smp).all (fun m => m.pre.all allowed) = true) {s : State} (hs : P s.tally) :
    P (runPlan p s).settle.tally := by
  have hsplit (smp : Sensors) := Bool.and_eq_true_iff.mp (List.all_append ▸ hp smp)
  have hhead := runSteps_settle_tally hP (hsplit 0#2).1 hs
  rw [runPlan]
  cases hr : runSteps p.head s with
  | going t =>
    rw [hr] at hhead
    exact runSteps_settle_tally hP (hsplit t.sampled).2 hhead
  | raised e t => rwa [hr] at hhead

/-- As `runSteps_settle_tally`, for a command, refused, faulted or completed. -/
theorem exec_tally {i : Instr} {s t : State}
    (hi : ∀ smp, ((planOf s.cfg i).head ++ (planOf s.cfg i).tail smp).all (fun m => m.pre.all allowed) = true)
    (hs : P s.tally) (h : exec i s = .next t) : P t.tally := by
  rw [exec_eq_runCommand] at h
  rcases runCommand_cases i (planOf s.cfg i) s with ⟨-, hx⟩ | ⟨-, e, -, hx⟩ | ⟨-, -, hx⟩ <;>
    obtain rfl := Host.Outcome.next.inj (hx.symm.trans h)
  · exact hs
  · simpa [State.tally] using hs
  · exact runPlan_settle_tally hP hi hs

end

/-! ### The register updates of the commands -/

/-- A register update that leaves the counters alone. -/
def RegUpdate.keepsCounters : RegUpdate → Bool
  | .setDir => true
  | .latch _ _ => true
  | .toggle _ => true
  | .clearCounters => false
  | .count => false
  | .burst _ => true
  | .quit => true

/-- A register update that lowers no counter. -/
def RegUpdate.lowersNoCounter (u : RegUpdate) : Bool := u != .clearCounters

theorem applyUpdate_tally {u : RegUpdate} (h : u.keepsCounters = true) (s : State) :
    (applyUpdate s u).tally = s.tally := by
  cases u with
  | clearCounters => cases h
  | count => cases h
  | _ => rfl

/-- Only the console cycles write the counters. -/
theorem planOf_keepsCounters (cfg : Config) {i : Instr} (hi : i ≠ .contick ∧ ∀ key, i ≠ .contickKey key)
    (smp : Sensors) :
    ((planOf cfg i).head ++ (planOf cfg i).tail smp).all (fun m => m.pre.all RegUpdate.keepsCounters) = true := by
  cases i with
  | contick => exact absurd rfl hi.1
  | contickKey key => exact absurd rfl (hi.2 key)
  | bridge a b =>
    simp only [planOf, bridgePlan, straightPlan, List.append_nil]
    cases pairOfCode a <;> cases bridgeCommandOfCode b <;> rfl
  | navtick =>
    simp only [planOf, navtickPlan, navActions]
    split <;> rfl
  | _ => rfl

theorem RegUpdate.lowersNoCounter_of_keeps {u : RegUpdate} (h : u.keepsCounters = true) :
    u.lowersNoCounter = true := by
  cases u with
  | clearCounters => cases h
  | _ => rfl

theorem consolePlan_lowersNoCounter {action : KeyAction} (h : action ≠ .resetCounters) (smp : Sensors) :
    ((consolePlan action).head ++ (consolePlan action).tail smp).all (fun m => m.pre.all RegUpdate.lowersNoCounter)
      = true := by
  cases action with
  | resetCounters => exact absurd rfl h
  | _ => rfl

theorem dispatchKey_ne_resetCounters (k : Keymap) {key : Byte} (h : key ≠ 0x30#8) :
    dispatchKey k key ≠ .resetCounters := by
  rcases dispatchKey_cases k key with ⟨hk, -⟩ | ⟨i, -, hd⟩ | hd | hd | ⟨p, c, hd⟩
  · exact absurd hk h
  all_goals rw [hd]; nofun

/-- Only the cycle of key '0' lowers the counters. -/
theorem planOf_lowersNoCounter (cfg : Config) {i : Instr} (hi : i ≠ .contickKey 0x30#8) (smp : Sensors) :
    ((planOf cfg i).head ++ (planOf cfg i).tail smp).all (fun m => m.pre.all RegUpdate.lowersNoCounter) = true := by
  by_cases hc : i ≠ .contick ∧ ∀ key, i ≠ .contickKey key
  · have h := planOf_keepsCounters cfg hc smp
    simp only [List.all_eq_true] at h ⊢
    exact fun m hm u hu => RegUpdate.lowersNoCounter_of_keeps (h m hm u hu)
  · cases i with
    | contick => exact consolePlan_lowersNoCounter (action := .noAction) nofun smp
    | contickKey key =>
      exact consolePlan_lowersNoCounter (dispatchKey_ne_resetCounters _ fun hk => hi (congrArg _ hk)) smp
    | _ => exact absurd ⟨nofun, nofun⟩ hc

/-! ### The statement -/

/-- Both counters fit their width and are no lower than `c6` and `c7`. -/
def Risen (c6 c7 : Nat) : Option Nat × Nat × Nat → Prop
  | (w, x6, x7) => (counterFits w x6 ∧ c6 ≤ x6) ∧ counterFits w x7 ∧ c7 ≤ x7

/-- Counting does not lower a counter that fits: a saturated one stays (43_loops R193). -/
theorem le_countLow {w : Option Nat} {x : Nat} (h : counterFits w x) (high : Bool) : x ≤ countLow w high x := by
  cases high with
  | true => exact Nat.le_refl x
  | false =>
    cases w with
    | none => exact Nat.le_succ x
    | some n => exact Nat.le_min.mpr ⟨Nat.le_succ x, h n rfl⟩

theorem applyUpdate_risen {c6 c7 : Nat} (u : RegUpdate) (hu : u.lowersNoCounter = true) (s : State)
    (h : Risen c6 c7 s.tally) : Risen c6 c7 (applyUpdate s u).tally := by
  cases u with
  | clearCounters => cases hu
  | count =>
    obtain ⟨⟨hf6, h6⟩, hf7, h7⟩ := h
    exact ⟨⟨countLow_fits hf6 _, h6.trans (le_countLow hf6 _)⟩, countLow_fits hf7 _, h7.trans (le_countLow hf7 _)⟩
  | _ => exact h

/-- Settles O38: only a console cycle has updates of the counters, and only that of key '0' one that lowers them. -/
theorem countersOnlyRise : Obligations.CountersOnlyRise := by
  intro i s t h
  refine ⟨fun hi => ?_, fun hi hf6 hf7 => ?_⟩
  · have hkept : t.tally = s.tally := exec_tally (P := (· = s.tally))
      (fun u hu v hv => (applyUpdate_tally hu v).trans hv) (planOf_keepsCounters s.cfg hi) rfl h
    exact Prod.mk.inj (Prod.mk.inj hkept).2
  · obtain ⟨⟨-, h6⟩, -, h7⟩ : Risen s.cnt6 s.cnt7 t.tally :=
      exec_tally applyUpdate_risen (planOf_lowersNoCounter s.cfg hi) ⟨⟨hf6, le_rfl⟩, hf7, le_rfl⟩ h
    exact ⟨h6, h7⟩

end Sys2Proof.Machine
end

section
/-! SUPPORT. Faults, the prologue and the halt (60_exceptions R211 to R221): what taking a fault writes, the order of
the prologue's checks, and what a fault leaves behind. -/

namespace Sys2Proof.Machine

/-! ### Fault codes and the effect of a fault -/

/-- The codes number the faults in the order of R211's table, from 1. -/
theorem ofNat_code_sub_one : Function.LeftInverse (fun n : Nibble => FaultCode.ofNat (n.toNat - 1)) FaultCode.code :=
  fun e => by cases e <;> rfl

/-- Settles O41: a fault can be read back from its code. -/
theorem faultCodes : Obligations.FaultCodes := by
  refine ⟨?_, rfl, fun e f h => ofNat_code_sub_one.injective h⟩
  decide

/-- Settles O40: the three ways the cleanup goes, each followed by the halt and the response. -/
theorem takeFaultEffect : Obligations.TakeFaultEffect := by
  refine fun e s => ⟨fun hd => ?_, fun hd hx => ?_, fun hd hx => ?_⟩
  · rw [takeFault, faultCleanup_unconfigured hd]; rfl
  · rw [takeFault, faultCleanup_done hd hx]; rfl
  · rw [takeFault, faultCleanup_failed hd hx]; rfl

/-! ### The prologue -/

/-- A halted controller refuses every word, whether it decodes or not (60_exceptions R221). -/
theorem acceptWord_halted (w : Word) {s : State} (hh : s.halted = true) :
    (acceptWord w s).outcome = .next (refuseHalted s) := by
  simp [acceptWord, hh, Action.outcome]

/-- Without a direction mask every command but SETDIR faults, before its operands are checked (60_exceptions R213). -/
theorem check_unconfigured (cfg : Config) {i : Instr} (hi : ∀ a, i ≠ .setdir a) :
    (planOf cfg i).check false = some .notConfigured := by
  cases i with
  | setdir a => exact absurd rfl (hi a)
  | _ => rfl

/-- Settles O42: the word is accepted as the host's next move, and each check comes after the ones that passed. -/
theorem prologueOrder : Obligations.PrologueOrder := by
  intro s w ms hq hm
  have hstep : step s = (acceptWord w (s.withMoves ms)).outcome :=
    (congrArg step (eq_withMoves hm)).trans (step_word hq w ms)
  refine ⟨fun hh => ?_, fun e hh hd => ?_, fun i hh hd hc hi => ?_, fun i _ hd _ => ?_⟩
  · exact hstep.trans (acceptWord_halted w hh)
  · exact hstep.trans (acceptWord_illegal hh hd)
  · have hcheck : (planOf s.cfg i).check s.dirset = some .notConfigured := by rw [hc, check_unconfigured _ hi]
    exact hstep.trans ((acceptWord_decoded _ hd).trans (exec_fault (s := s.withMoves ms) hh hcheck))
  · exact hstep.trans (acceptWord_decoded _ hd)

/-! ### While halted -/

theorem acceptPaused_halted (w : Word) {s : State} (hh : s.halted = true) : acceptPaused w s = refuseHalted s :=
  if_pos hh

/-- A byte to a halted controller is kept, or completes a word, which is refused. -/
theorem acceptByte_halted (b : Byte) {s : State} (hh : s.halted = true) :
    ∃ bs rs, (acceptByte b s).outcome = .next { s with rx := bs, responses := rs } := by
  unfold acceptByte
  split
  · next op a b' c rest _ => exact ⟨rest, _, acceptWord_halted (mkWord op a b' c) (s := { s with rx := rest }) hh⟩
  all_goals exact ⟨_, s.responses, rfl⟩

/-- A halted controller's next state, whatever move of the host but a reset comes next (60_exceptions R221). -/
theorem actIdle_halted {s : State} (hh : s.halted = true) (hr : ∀ ms, s.moves ≠ .reset :: ms) :
    ∃ ms bs rs, (actIdle s).outcome = .next { s with moves := ms, rx := bs, responses := rs } := by
  unfold actIdle
  split
  · exact ⟨s.moves, s.rx, s.responses, rfl⟩
  · next w ms _ => exact ⟨ms, s.rx, _, acceptWord_halted w (s := s.withMoves ms) hh⟩
  · next w ms _ =>
    exact ⟨ms, s.rx, _, congrArg Host.Outcome.next (acceptPaused_halted w (s := s.withMoves ms) hh)⟩
  · next b ms _ => exact ⟨ms, acceptByte_halted b (s := s.withMoves ms) hh⟩
  · next ms _ => exact ⟨ms, s.rx, s.responses, rfl⟩
  · next ms _ => exact ⟨ms, s.rx, s.responses, rfl⟩
  · next ms hm => exact absurd hm (hr ms)

/-- Settles O43: move by move; a command word gets the refusal of the prologue. -/
theorem haltedUntilReset : Obligations.HaltedUntilReset := by
  intro s hh hq hr
  obtain ⟨ms, bs, rs, ht⟩ := actIdle_halted hh hr
  have hstep : step s = .next { s with moves := ms, rx := bs, responses := rs } := (step_idle (.inr hq)).trans ht
  refine ⟨_, hstep, rfl, fun w ms' hm => ?_⟩
  have hrefused := (prologueOrder s w ms' (.inr hq) hm).1 hh
  exact congrArg State.responses (Host.Outcome.next.inj (hstep.symm.trans hrefused))

/-! ### What a command that faults leaves -/

/-- The micro-steps of a plan end with HALTED as it was, or in a failed exchange. -/
theorem runPlan_cases (p : Plan) (s : State) :
    (∃ t, runPlan p s = .going t ∧ t.halted = s.halted) ∨ ∃ t, runPlan p s = .raised .deviceUnavailable t := by
  rcases runSteps_cases p.head s with ⟨u, hu, hh⟩ | ⟨u, hu⟩
  · rw [runPlan, hu, ← hh]
    exact runSteps_cases (p.tail u.sampled) u
  · exact .inr ⟨u, by rw [runPlan, hu]; rfl⟩

/-- The first micro-step of SETDIR sets the flag, and no other clears it. -/
theorem runPlan_setdir_dirset (a : Byte) {s : State} (hw : s.hidden.waitLeft = none) :
    (runPlan (setdirPlan a) s).settle.dirset = true := by
  have hmask : (runPlan (setdirPlan a) s).settle.mask = (dirMask, true) := by
    rw [setdirPlan, runPlan_straight, runSteps_cons,
      andThen_settle_mask (runSteps_settle_mask (by simp [respondPlain])), perform_settle_mask]
    simp [enterMicro, hw, applyUpdate, State.mask]
  exact congrArg Prod.snd hmask

/-- A command whose checks pass leaves the controller configured, also where it faults. -/
theorem runPlan_settle_dirset {c : Instr} {s : State} (hc : (planOf s.cfg c).check s.dirset = none) :
    (runPlan (planOf s.cfg c) (s.inProgress c 0 .idle)).settle.dirset = true := by
  cases hd : s.dirset with
  | true => exact (microRun_runPlan (s := s.inProgress c 0 .idle) (operandsLegal_of_check hc) rfl).dirset hd
  | false =>
    obtain rfl := eq_setdir_of_check (hd ▸ hc)
    exact runPlan_setdir_dirset dirMask rfl

/-- A command that halts the controller takes a fault: in the state it was accepted in, or once configured. -/
theorem exec_halts {i : Instr} {s t : State} (hh : s.halted = false) (hx : exec i s = .next t)
    (ht : t.halted = true) : ∃ e u, t = takeFault e u ∧ (u = s ∨ u.dirset = true) := by
  rw [exec_eq_runCommand] at hx
  rcases runCommand_cases i (planOf s.cfg i) s with ⟨hh', -⟩ | ⟨-, e, -, hr⟩ | ⟨-, hc, hr⟩
  · simp [hh] at hh'
  · exact ⟨e, s, Host.Outcome.next.inj (hx.symm.trans hr), .inl rfl⟩
  · obtain rfl := Host.Outcome.next.inj (hr.symm.trans hx)
    rcases runPlan_cases (planOf s.cfg i) (s.inProgress i 0 .idle) with ⟨u, hu, hhu⟩ | ⟨u, hu⟩
    · rw [hu] at ht
      exact absurd (ht.symm.trans (hhu.trans hh)) nofun
    · have hd := runPlan_settle_dirset hc
      rw [hu] at hd
      exact ⟨.deviceUnavailable, u, by rw [hu]; rfl, .inr ((takeFault_dirset _ u).symm.trans hd)⟩

/-- A command that halts the controller answers once, with the code it leaves in ERR. -/
theorem exec_halts_response {i : Instr} {s t : State} (hh : s.halted = false) (hx : exec i s = .next t)
    (ht : t.halted = true) :
    ∃ e : FaultCode, t.err = e.code ∧ t.responses = s.responses ++ [plainResponse e.code e.code] := by
  rcases exec_ends i hh with ⟨v, hv, -, hhv, -⟩ | ⟨e, v, hv, hresp, he⟩ <;>
    obtain rfl := Host.Outcome.next.inj (hv.symm.trans hx)
  · exact absurd (ht.symm.trans hhv) nofun
  · exact ⟨e, he, by simp [faultRespond, hresp, he]⟩

/-- Settles O44: the command's end is a fault taken, unconfigured only where the prologue or its check raised it. -/
theorem faultLeavesOutputsOff : Obligations.FaultLeavesOutputsOff := by
  intro i s t hh hx ht
  have hresp := exec_halts_response hh hx ht
  obtain ⟨e, u, rfl, hu⟩ := exec_halts hh hx ht
  refine ⟨takeFault_out e u, takeFault_seq e u, takeFault_hidden e u, hresp, fun hd => ?_, fun hd => ?_⟩
  · rw [takeFault_dirset] at hd
    exact faultCleanup_pinsOut hd
  · rw [takeFault_dirset] at hd
    obtain rfl := hu.resolve_right (by simp [hd])
    rw [(takeFaultEffect e u).1 hd]
    exact ⟨rfl, rfl⟩

end Sys2Proof.Machine
end

section
/-! SUPPORT. The boot duty (70 R244, R245): from the first word on, a controller whose host keeps it is booted, and
stands in no configuration fault. -/

namespace Sys2Proof.Machine

/-! ### ERR and the responses -/

theorem errFree_zero : errFree 0#4 := by
  intro e _
  cases e <;> decide

theorem errFree_code {e : FaultCode} (h : e.isConfiguration = false) : errFree e.code := by
  intro f hf he
  obtain rfl := ofNat_code_sub_one.injective he
  simp [h] at hf

/-- From `s` to `t` no response is given, or one that carries ERR as `t` has it (10_state R29, R32). -/
def State.AnswersErr (s t : State) : Prop :=
  t.responses = s.responses ∨ ∃ r, t.responses = s.responses ++ [r] ∧ r.err = t.err

theorem perform_answersErr (m : MicroStep) (s : State) : s.AnswersErr (perform m s).pause := by
  by_cases hr : ∃ r, m.prim = .respond r
  · obtain ⟨r, hr⟩ := hr
    simp only [perform, hr]
    exact .inr ⟨_, congrArg (· ++ _) (enterMicro_responses m s), okResponse_err _ _⟩
  · exact .inl (perform_silent (not_exists.mp hr)).1

theorem takeFault_answersErr (e : FaultCode) (s : State) : s.AnswersErr (takeFault e s) :=
  .inr ⟨_, takeFault_responses e s, (takeFault_err e s).symm⟩

theorem faultMicro_answersErr (e : FaultCode) (cleaned : Bool) (s : State) :
    s.AnswersErr (faultMicro e cleaned s) := by
  unfold faultMicro
  split
  · exact .inr ⟨_, rfl, rfl⟩
  · split
    · exact .inl (faultCleanup_responses e s)
    · exact takeFault_answersErr e s

theorem refuseHalted_answersErr (s : State) : s.AnswersErr (refuseHalted s) := .inr ⟨_, rfl, rfl⟩

theorem acceptPaused_answersErr (w : Word) (s : State) : s.AnswersErr (acceptPaused w s) := by
  cases hh : s.halted with
  | true => rw [acceptPaused_halted w hh]; exact refuseHalted_answersErr s
  | false => exact .inl (acceptPaused_responses w hh)

theorem acceptWord_answersErr {w : Word} {s t : State} (h : (acceptWord w s).outcome = .next t) :
    s.AnswersErr t := by
  cases hd : decode w with
  | ok i =>
    obtain ⟨u, r, hu, hr, he, -⟩ := oneResponsePerCommand i s
    obtain rfl := Host.Outcome.next.inj (hu.symm.trans ((acceptWord_decoded s hd).symm.trans h))
    exact .inr ⟨r, hr, he⟩
  | error e =>
    cases hh : s.halted with
    | true =>
      obtain rfl := Host.Outcome.next.inj ((acceptWord_halted w hh).symm.trans h)
      exact refuseHalted_answersErr s
    | false =>
      obtain rfl := Host.Outcome.next.inj ((acceptWord_illegal hh hd).symm.trans h)
      exact takeFault_answersErr _ s

/-- Every step gives at most one response, which carries ERR. -/
theorem step_answersErr {s t : State} (h : step s = .next t) : s.AnswersErr t := by
  obtain ⟨ms, bs, hst⟩ := step_stepsTo h
  show (s.taking ms bs).AnswersErr t
  cases hst with
  | stay => exact .inl rfl
  | reset => exact .inl rfl
  | paused w _ => exact acceptPaused_answersErr w _
  | word w _ hw => exact acceptWord_answersErr hw
  | micro _ _ => exact perform_answersErr _ _
  | tick _ _ => exact .inl (performTick_responses _ _)
  | fault _ => exact faultMicro_answersErr _ _ _

theorem State.AnswersErr.err_eq {s t : State} {r : Response} (h : s.AnswersErr t)
    (hr : t.responses = s.responses ++ [r]) : r.err = t.err := by
  rcases h with h | ⟨r', h, he⟩
  · simp [h] at hr
  · obtain rfl : r' = r := by simpa [h] using hr
    exact he

/-! ### Booted, and spared the configuration faults -/

/-- What `State.bootDutyMet` says of the position: no configuration fault is being taken or recorded. -/
def State.spared (s : State) : Prop :=
  match s.seq with
  | .ready => True
  | .exec _ _ => True
  | .faulting e _ => s.dirset = true ∧ e.isConfiguration = false
  | .halt => s.dirset = true ∧ errFree s.err

theorem bootDutyMet_iff (s : State) : s.bootDutyMet ↔ bootDuty s.booted s.moves = true ∧ s.spared := Iff.rfl

/-- While no configuration fault is met, ERR holds no such code. -/
theorem State.Inv.errFree {s : State} (h : s.Inv) (hs : s.spared) : errFree s.err := by
  have hstatus := h.status
  unfold statusAgrees at hstatus
  unfold State.spared at hs
  split at hstatus
  case h_4 e hq =>
    simp only [hq] at hs
    rw [hstatus.2]
    exact errFree_code hs.2
  case h_5 hq =>
    simp only [hq] at hs
    exact hs.2
  all_goals
    rw [hstatus.2]
    exact errFree_zero

/-- The direction mask is set, or about to be, and no configuration fault is met. -/
def State.bootedSafely (s : State) : Prop := s.booted = true ∧ s.spared

theorem booted_of_dirset {s : State} (h : s.dirset = true) : s.booted = true := by simp [State.booted, h]

theorem bootedSafely_faulting {s : State} {e : FaultCode} {cleaned : Bool} (hd : s.dirset = true)
    (hq : s.seq = .faulting e cleaned) (he : e.isConfiguration = false) : s.bootedSafely :=
  ⟨booted_of_dirset hd, by simp [State.spared, hq, hd, he]⟩

theorem bootedSafely_halt {s : State} (hd : s.dirset = true) (hq : s.seq = .halt) (he : errFree s.err) :
    s.bootedSafely :=
  ⟨booted_of_dirset hd, by simp [State.spared, hq, hd, he]⟩

/-- A command in progress has passed the check of the direction mask, or is the SETDIR that sets it. -/
theorem bootedSafely_exec {s : State} {c : Instr} {k : Nat} (h : s.Inv) (hq : s.seq = .exec c k) :
    s.bootedSafely := by
  have hpos := h.position
  rw [positionValid, hq] at hpos
  obtain ⟨-, -, hset, -⟩ := hpos
  refine ⟨?_, by simp [State.spared, hq]⟩
  rcases hset with hd | ⟨rfl, -⟩
  · exact booted_of_dirset hd
  · simp [State.booted, hq]

/-! ### Micro-steps -/

/-- After a micro-step the direction mask is set: only SETDIR's first has it to set. -/
theorem perform_pause_dirset_of_inv {s : State} {c : Instr} {k : Nat} {m : MicroStep} (h : s.Inv)
    (hq : s.seq = .exec c k) (hm : currentMicro c k s = some m) : (perform m s).pause.dirset = true := by
  obtain ⟨-, he, -⟩ := h.at_micro hq hm
  have hp : (perform m s).pause.dirset = (perform m s).settle.dirset := by
    cases perform m s <;> simp [Flow.pause, Flow.settle]
  rw [hp, ← he.dirset]
  exact congrArg Prod.snd (perform_settle_mask m s)

/-- A failed exchange is no configuration fault. -/
theorem perform_bootedSafely {s : State} {c : Instr} {k : Nat} {m : MicroStep} (h : s.Inv)
    (hq : s.seq = .exec c k) (hm : currentMicro c k s = some m) : (perform m s).pause.bootedSafely := by
  have hd := perform_pause_dirset_of_inv h hq hm
  refine ⟨booted_of_dirset hd, ?_⟩
  cases hp : perform m s with
  | going t =>
    rcases perform_going hq hp with ⟨r, -, ht⟩ | ⟨-, ht, -⟩ <;> simp [Flow.pause, State.spared, ht]
  | raised e t =>
    rw [hp] at hd
    rcases perform_cases m s with ⟨-, hx⟩ | ⟨-, hx⟩ | ⟨-, p, hx⟩ | ⟨d, -, hx⟩ | ⟨r, -, hx⟩ <;>
      cases hx.symm.trans hp
    exact ⟨hd, rfl⟩

theorem faultMicro_bootedSafely {s : State} {e : FaultCode} {cleaned : Bool} (h : s.Inv)
    (hq : s.seq = .faulting e cleaned) (hs : s.spared) : (faultMicro e cleaned s).bootedSafely := by
  obtain ⟨hd, he⟩ : s.dirset = true ∧ e.isConfiguration = false := by simpa [State.spared, hq] using hs
  cases cleaned with
  | true => exact bootedSafely_halt hd rfl (h.errFree hs)
  | false =>
    have hm : faultMicro e false s = { faultCleanup e s with seq := .faulting e true } := by simp [faultMicro, hd]
    rw [hm]
    exact bootedSafely_faulting (by simpa using hd) rfl he

theorem MicroRun.bootedSafely {n : Nat} {s t : State} (hr : MicroRun n s t) (h : s.Inv) (hs : s.bootedSafely) :
    t.bootedSafely := by
  induction hr with
  | idle _ => exact hs
  | micro hq hm _ ih => exact ih (perform_inv h hq hm) (perform_bootedSafely h hq hm)
  | fault hq _ ih => exact ih (faultMicro_inv h hq) (faultMicro_bootedSafely h hq hs.2)

theorem performTick_seq {s : State} {c : Instr} {k : Nat} (hq : s.seq = .exec c k) (m : MicroStep) :
    ∃ k', (performTick m s).seq = .exec c k' := by
  have he : (enterMicro m s).seq = .exec c k := (enterMicro_seq m s).trans hq
  unfold performTick
  split
  · split
    · exact ⟨k + 1, endWait_seq he _⟩
    · exact ⟨k, he⟩
  all_goals exact ⟨k, hq⟩

/-! ### Words of a host that keeps the duty -/

/-- A word that the duty allows: SETDIR 0x3F at first, and then no SETDIR (70 R244, R245). -/
def wordAllowed (booted : Bool) (w : Word) : Bool :=
  if booted then wordOp w != 0x01#8 else w == 0x013F0000#32

theorem bootDuty_word (booted : Bool) (w : Word) (ms : List Move) :
    bootDuty booted (.word w :: ms) = (wordAllowed booted w && bootDuty true ms) := rfl

theorem bootDuty_offer (booted : Bool) (w : Word) (ms : List Move) :
    bootDuty booted (.offer w :: ms) = (wordAllowed booted w && bootDuty true ms) := rfl

/-- Once the direction mask is set, only SETDIR raises a configuration fault. -/
theorem check_configured {cfg : Config} {i : Instr} {e : FaultCode} (hi : ∀ a, i ≠ .setdir a)
    (hc : (planOf cfg i).check true = some e) : e.isConfiguration = false := by
  have hite (p : Prop) [Decidable p] (f : FaultCode) (hf : f.isConfiguration = false)
      (h : (if p then some f else none) = some e) : e.isConfiguration = false := by
    split at h <;> cases h
    exact hf
  cases i with
  | setdir a => exact absurd rfl (hi a)
  | write mask value => exact hite _ _ rfl hc
  | set a => exact hite _ _ rfl hc
  | clr a => exact hite _ _ rfl hc
  | tgl a => exact hite _ _ rfl hc
  | bridge a b => exact hite _ _ rfl hc
  | _ => cases hc

/-- The first word of the duty decodes to the SETDIR whose check passes, and no later word to a SETDIR. -/
theorem check_of_wordAllowed {cfg : Config} {dirset : Bool} {w : Word} {i : Instr} {e : FaultCode}
    (hw : wordAllowed dirset w = true) (hd : decode w = .ok i) (hc : (planOf cfg i).check dirset = some e) :
    dirset = true ∧ e.isConfiguration = false := by
  cases dirset with
  | false =>
    obtain rfl : w = encode (.setdir 0x3F#8) := eq_of_beq hw
    cases (decode_encode rfl).symm.trans hd
    cases hc
  | true =>
    refine ⟨rfl, check_configured ?_ hc⟩
    rintro a rfl
    obtain ⟨-, rfl⟩ := decode_eq_ok_iff.mp hd
    simp [wordAllowed, encode] at hw

/-- The first word of the duty decodes. -/
theorem dirset_of_illegal {dirset : Bool} {w : Word} {e : DecodeError} (hw : wordAllowed dirset w = true)
    (hd : decode w = .error e) : dirset = true := by
  cases dirset with
  | false =>
    obtain rfl : w = encode (.setdir 0x3F#8) := eq_of_beq hw
    cases (decode_encode rfl).symm.trans hd
  | true => rfl

theorem acceptPaused_bootedSafely {s : State} {w : Word} (h : s.Inv) (hq : s.seq = .ready ∨ s.seq = .halt)
    (hs : s.spared) (hw : wordAllowed s.booted w = true) : (acceptPaused w s).bootedSafely := by
  have hstatus := h.status
  rcases hq with hq | hq <;> rw [statusAgrees, hq] at hstatus
  · have hb : s.booted = s.dirset := by simp [State.booted, hq]
    rw [hb] at hw
    rw [acceptPaused, if_neg (by simp [hstatus.1])]
    split
    · next hd => exact bootedSafely_faulting (dirset_of_illegal hw hd) rfl rfl
    · next i hd =>
      split
      · next e hc =>
        obtain ⟨hds, he⟩ := check_of_wordAllowed hw hd hc
        exact bootedSafely_faulting hds rfl he
      · next hc => exact bootedSafely_exec (start_inv h hq hc) rfl
  · obtain ⟨hd, he⟩ : s.dirset = true ∧ errFree s.err := by simpa [State.spared, hq] using hs
    rw [acceptPaused_halted w hstatus.1]
    exact bootedSafely_halt hd hq he

theorem acceptPaused_moves (w : Word) (s : State) : (acceptPaused w s).moves = s.moves := by
  unfold acceptPaused
  split
  · rfl
  · split
    · rfl
    · split <;> rfl

/-! ### Steps -/

/-- Once a word is accepted the duty is that of a booted controller. -/
theorem State.bootedSafely.bootDutyMet {s : State} {ms : List Move} (h : s.bootedSafely) (hm : s.moves = ms)
    (hd : bootDuty true ms = true) : s.bootDutyMet := by
  obtain ⟨hb, hs⟩ := h
  exact ⟨by rw [hb, hm, hd], hs⟩

/-- A reset starts the duty anew. -/
theorem applyReset_bootDutyMet {s : State} (h : bootDuty false s.moves = true) : (applyReset s).bootDutyMet :=
  ⟨h, trivial⟩

theorem actIdle_bootDutyMet {s t : State} (h : s.Inv) (hb : s.bootDutyMet) (hq : s.seq = .ready ∨ s.seq = .halt)
    (ht : (actIdle s).outcome = .next t) : t.bootDutyMet := by
  obtain ⟨hd, hs⟩ := (bootDutyMet_iff s).mp hb
  unfold actIdle at ht
  split at ht
  case h_1 =>
    cases ht
    exact hb
  case h_2 w ms hm =>
    rw [hm, bootDuty_word, Bool.and_eq_true] at hd
    obtain ⟨u, hu, hr⟩ := acceptWord_microRun w (s := s.withMoves ms) hq
    obtain rfl := Host.Outcome.next.inj (hu.symm.trans ht)
    have hi := acceptPaused_inv (h.withMoves ms) hq w
    have ha := acceptPaused_bootedSafely (s := s.withMoves ms) (h.withMoves ms) hq hs hd.1
    exact (hr.bootedSafely hi ha).bootDutyMet ((microRun_extends hr).moves.trans (acceptPaused_moves w _)) hd.2
  case h_3 w ms hm =>
    rw [hm, bootDuty_offer, Bool.and_eq_true] at hd
    cases ht
    exact (acceptPaused_bootedSafely (s := s.withMoves ms) (h.withMoves ms) hq hs hd.1).bootDutyMet
      (acceptPaused_moves w _) hd.2
  case h_4 hm =>
    rw [hm] at hd
    cases hd
  case h_7 hm =>
    rw [hm] at hd
    cases ht
    exact applyReset_bootDutyMet hd
  all_goals
    next hm =>
    rw [hm] at hd
    cases ht
    exact ⟨hd, hs⟩

theorem microStep_bootDutyMet {s t : State} {c : Instr} {k : Nat} {ms : List Move} (h : s.Inv)
    (hq : s.seq = .exec c k) (hm : s.moves = ms) (hd : bootDuty true ms = true) (ht : microStep c k s = .next t) :
    t.bootDutyMet := by
  unfold microStep at ht
  split at ht <;> cases ht
  exact (perform_bootedSafely h hq ‹_›).bootDutyMet ((perform_extends _ s).moves.trans hm) hd

theorem microTick_bootDutyMet {s t : State} {c : Instr} {k : Nat} {ms : List Move} (h : s.Inv)
    (hq : s.seq = .exec c k) (hm : s.moves = ms) (hd : bootDuty true ms = true) (ht : microTick c k s = .next t) :
    t.bootDutyMet := by
  unfold microTick at ht
  split at ht <;> cases ht
  next m hmicro =>
  obtain ⟨k', hk⟩ := performTick_seq hq m
  have hmoves : (performTick m s).moves = s.moves := (congrArg State.moves (performTick_withMoves m s s.moves) :)
  exact (bootedSafely_exec (performTick_inv h hq hmicro) hk).bootDutyMet (hmoves.trans hm) hd

theorem actExec_bootDutyMet {s t : State} {c : Instr} {k : Nat} (h : s.Inv) (hb : s.bootDutyMet)
    (hq : s.seq = .exec c k) (ht : (actExec c k s).outcome = .next t) : t.bootDutyMet := by
  have hd : bootDuty true s.moves = true := (bootedSafely_exec h hq).1 ▸ hb.1
  unfold actExec at ht
  split at ht
  case h_5 ms hm =>
    rw [hm] at hd
    exact microStep_bootDutyMet (h.withMoves ms) hq rfl hd ht
  case h_6 ms hm =>
    rw [hm] at hd
    exact microTick_bootDutyMet (h.withMoves ms) hq rfl hd ht
  case h_7 hm =>
    rw [hm] at hd
    cases ht
    exact applyReset_bootDutyMet hd
  all_goals exact microStep_bootDutyMet h hq rfl hd ht

theorem faultMicro_bootDutyMet {s : State} {e : FaultCode} {cleaned : Bool} {ms : List Move} (h : s.Inv)
    (hq : s.seq = .faulting e cleaned) (hs : s.spared) (hm : s.moves = ms) (hd : bootDuty true ms = true) :
    (faultMicro e cleaned s).bootDutyMet :=
  (faultMicro_bootedSafely h hq hs).bootDutyMet ((faultMicro_extends e cleaned s).moves.trans hm) hd

theorem actFaulting_bootDutyMet {s t : State} {e : FaultCode} {cleaned : Bool} (h : s.Inv) (hb : s.bootDutyMet)
    (hq : s.seq = .faulting e cleaned) (ht : (actFaulting e cleaned s).outcome = .next t) : t.bootDutyMet := by
  obtain ⟨hd, hs⟩ := (bootDutyMet_iff s).mp hb
  obtain ⟨hset, -⟩ : s.dirset = true ∧ e.isConfiguration = false := by simpa [State.spared, hq] using hs
  rw [booted_of_dirset hset] at hd
  unfold actFaulting at ht
  split at ht <;> cases ht
  case h_5 ms hm =>
    rw [hm] at hd
    exact faultMicro_bootDutyMet (h.withMoves ms) hq hs rfl hd
  case h_6 ms hm =>
    rw [hm] at hd
    exact State.bootedSafely.bootDutyMet (s := s.withMoves ms) ⟨booted_of_dirset hset, hs⟩ rfl hd
  case h_7 hm =>
    rw [hm] at hd
    exact applyReset_bootDutyMet hd
  all_goals exact faultMicro_bootDutyMet h hq hs rfl hd

theorem step_bootDutyMet {s t : State} (h : s.Inv) (hb : s.bootDutyMet) (ht : step s = .next t) :
    t.bootDutyMet := by
  rw [step_eq, act] at ht
  split at ht
  · next hq => exact actIdle_bootDutyMet h hb (.inl hq) ht
  · next hq => exact actIdle_bootDutyMet h hb (.inr hq) ht
  · next hq => exact actExec_bootDutyMet h hb hq ht
  · next hq => exact actFaulting_bootDutyMet h hb hq ht

/-- Settles O14: a response carries ERR, which holds no configuration fault's code where the duty is kept. -/
theorem bootDutyAvoidsConfigurationFaults : Obligations.BootDutyAvoidsConfigurationFaults := by
  intro s t h hb ht
  have hbt := step_bootDutyMet h hb ht
  refine ⟨hbt, fun r hr => ?_⟩
  rw [(step_answersErr ht).err_eq hr]
  exact (stepKeepsInvariant s t h ht).errFree hbt.2

end Sys2Proof.Machine
end

section
/-! SUPPORT. Reset and boot, and the commands that shut the outputs down (70 R240 to R246). -/

namespace Sys2Proof.Machine

/-! ### Reset -/

theorem applyReset_isReset (s : State) : (applyReset s).isReset := by simp [State.isReset]

/-- A reset is taken at every position (70 R240). -/
theorem step_reset {s : State} {ms : List Move} (hm : s.moves = .reset :: ms) :
    step s = .next (applyReset { s with moves := ms }) := by
  cases hq : s.seq <;> simp [step, act, hq, actIdle, actExec, actFaulting, hm]

/-- Settles O11: the values are those `applyReset` writes, and with no move left a ready controller stays. -/
theorem resetValues : Obligations.ResetValues :=
  ⟨by simp [State.isReset, State.reset], fun s =>
    ⟨applyReset_isReset s, rfl, fun hm => step_idle_noMoves (.inl rfl) hm⟩⟩

/-- Settles O12: every position takes the reset, which keeps the parameters and the observation. -/
theorem resetAtAnyPosition : Obligations.ResetAtAnyPosition := fun _ _ hm =>
  ⟨_, step_reset hm, rfl, applyReset_isReset _, rfl, rfl, rfl, rfl, rfl, rfl, rfl, rfl⟩

/-! ### Boot -/

/-- Settles O13: SETDIR and its check, and NotConfigured from the check of every other command. -/
theorem bootSequence : Obligations.BootSequence := by
  obtain ⟨-, hsetdir⟩ := setdirWhole
  refine ⟨fun s hs hx => ?_, fun s i hs hi => ?_, fun s a hs => (hsetdir s a hs.1).1 hs.2⟩
  · obtain ⟨hout, hd, -, -, -, hh, he, -, -⟩ := hs
    obtain ⟨-, -, hdone, -⟩ := hsetdir s 0x3F#8 hh
    exact ⟨_, hdone hd rfl hx, ⟨rfl, hh, he, rfl, rfl⟩, hout⟩
  · obtain ⟨-, hd, hpins, -, -, hh, -, -, -⟩ := hs
    have hrun : exec i s = .next (takeFault .notConfigured s) :=
      exec_fault hh (by rw [hd, check_unconfigured _ hi])
    obtain ⟨-, -, -, -, -, hoff⟩ := faultLeavesOutputsOff i s _ hh hrun (takeFault_halted _ _)
    obtain ⟨hsame, htrace⟩ := hoff (by rw [takeFault_dirset, hd])
    exact ⟨_, hrun, rfl, takeFault_halted _ _, hsame.trans hpins, htrace⟩

/-! ### Shutdown -/

/-- Between commands with the latch cleared, and the pins with it unless the cleanup of a DeviceUnavailable failed
(60_exceptions R224, R225). -/
def ShutsDown (t : State) : Prop :=
  t.allCoast ∧ t.cmdReady = true
    ∧ (t.pinsOut = .driven 0#6
        ∨ (t.pinsOut = .unknown ∧ t.halted = true ∧ t.err = FaultCode.code .deviceUnavailable))

/-- A cleared latch that is committed. -/
theorem shutsDown_committed (s : State) (r : Response) : ShutsDown ((s.committed 0#6).answered r) :=
  ⟨rfl, rfl, .inl rfl⟩

/-- A failed exchange: the cleanup of its fault clears the latch, whatever its commit does (60_exceptions R225). -/
theorem shutsDown_takeFault {s : State} (hd : s.dirset = true) : ShutsDown (takeFault .deviceUnavailable s) := by
  refine ⟨takeFault_out _ s, by simp [State.cmdReady], ?_⟩
  exact (faultCleanup_pinsOut hd).imp_right fun hp => ⟨hp, takeFault_halted _ s, takeFault_err _ s⟩

theorem exec_zeroall_shutsDown {s t : State} (hs : s.running) (h : exec .zeroall s = .next t) : ShutsDown t := by
  obtain ⟨-, hzero⟩ := zeroallWhole
  obtain ⟨hdone, hfailed⟩ := hzero s hs
  cases hx : exchangeSucceeds (s.exchangeAt 0) with
  | true =>
    obtain rfl := Host.Outcome.next.inj ((hdone hx).symm.trans h)
    exact shutsDown_committed _ _
  | false =>
    obtain rfl := Host.Outcome.next.inj ((hfailed hx).symm.trans h)
    exact shutsDown_takeFault hs.2

/-- A Quit cycle fails at its sample or at its commit, or clears the outputs (43_loops R195). -/
theorem exec_quit_shutsDown {s t : State} {key : Byte} (hs : s.running)
    (hk : dispatchKey s.cfg.keymap key = .quit) (h : exec (.contickKey key) s = .next t) : ShutsDown t := by
  have hc := consoleCycle_contickKey hs hk
  cases hp : s.exchangeAt 0 with
  | failed =>
    obtain rfl := Host.Outcome.next.inj ((hc.exec_sampleFailed (exchangesSucceed_zero s) hp).symm.trans h)
    exact shutsDown_takeFault hs.2
  | done p =>
    obtain ⟨hdone, hfailed⟩ := hc.exec_quit hp
    cases hx : exchangeSucceeds (s.exchangeAt 1) with
    | true =>
      obtain rfl := Host.Outcome.next.inj ((hdone hx).symm.trans h)
      exact shutsDown_committed _ _
    | false =>
      obtain rfl := Host.Outcome.next.inj ((hfailed hx).symm.trans h)
      exact shutsDown_takeFault hs.2

/-- Settles O15: both commands end with the latch cleared, by their own commit or by a fault. -/
theorem zeroallAndQuitShutDown : Obligations.ZeroallAndQuitShutDown := by
  intro i s t hs hm hi h
  have hend : ShutsDown t := by
    rcases hi with rfl | ⟨key, rfl, hk⟩
    · exact exec_zeroall_shutsDown hs h
    · exact exec_quit_shutsDown hs hk h
  obtain ⟨hcoast, hready, hpins⟩ := hend
  exact ⟨hcoast, ⟨hready, (exec_extends h).moves.trans hm⟩, fun _ => hcoast, hpins⟩

end Sys2Proof.Machine
end

section
/-! SUPPORT. What a command costs (70 R258): the cost of its micro-steps, added up. -/

namespace Sys2Proof.Machine

/-! ### The cost of micro-steps -/

/-- Ticks, pin trace entries and exchanges so far. -/
def State.spent (s : State) : Nat × Nat × Nat := (s.ticks, s.trace.length, s.draws)

/-- Ticks, pin trace entries and exchanges of a micro-step that raises no fault (60_exceptions R228). -/
def MicroStep.cost (cfg : Config) (m : MicroStep) : Nat × Nat × Nat :=
  match m.prim with
  | .commit => (0, 1, 1)
  | .sample => (0, 0, 1)
  | .wait d => (delayTicks cfg d, 0, 0)
  | .respond _ => (0, 0, 0)

/-- The cost of micro-steps, added up. -/
def stepsCost (cfg : Config) (l : List MicroStep) : Nat × Nat × Nat := (l.map (MicroStep.cost cfg)).sum

@[simp] theorem stepsCost_nil (cfg : Config) : stepsCost cfg [] = 0 := rfl

@[simp] theorem stepsCost_cons (cfg : Config) (m : MicroStep) (l : List MicroStep) :
    stepsCost cfg (m :: l) = m.cost cfg + stepsCost cfg l := List.sum_cons

@[simp] theorem stepsCost_append (cfg : Config) (l l' : List MicroStep) :
    stepsCost cfg (l ++ l') = stepsCost cfg l + stepsCost cfg l' := by
  rw [stepsCost, List.map_append, List.sum_append, stepsCost, stepsCost]

/-- A micro-step with no Wait under way costs what it says, and leaves no Wait under way. -/
theorem perform_spent {m : MicroStep} {s t : State} (hw : s.hidden.waitLeft = none) (h : perform m s = .going t) :
    t.spent = s.spent + m.cost s.cfg ∧ t.cfg = s.cfg ∧ t.hidden.waitLeft = none := by
  rcases perform_cases m s with ⟨-, hp⟩ | ⟨hm, hp⟩ | ⟨hm, p, hp⟩ | ⟨d, hm, hp⟩ | ⟨r, hm, hp⟩ <;>
    cases hp.symm.trans h
  · simp [State.spent, MicroStep.cost, hm, hw]
  · simp [State.spent, MicroStep.cost, hm, hw]
  · simp [State.spent, MicroStep.cost, hm, hw, waitTicks]
  · simp [State.spent, MicroStep.cost, hm, finish, Hidden.idle]

/-- Micro-steps that raise no fault cost what they add up to. -/
theorem runSteps_spent {l : List MicroStep} {s t : State} (hw : s.hidden.waitLeft = none)
    (h : runSteps l s = .going t) :
    t.spent = s.spent + stepsCost s.cfg l ∧ t.cfg = s.cfg ∧ t.hidden.waitLeft = none := by
  induction l generalizing s with
  | nil =>
    cases h
    exact ⟨(add_zero _).symm, rfl, hw⟩
  | cons m ms ih =>
    rw [runSteps_cons] at h
    cases hp : perform m s with
    | raised e u => rw [hp] at h; cases h
    | going u =>
      rw [hp] at h
      obtain ⟨hu, hc, hwu⟩ := perform_spent hw hp
      obtain ⟨ht, hct, hwt⟩ := ih hwu h
      refine ⟨?_, hct.trans hc, hwt⟩
      rw [ht, hu, hc, stepsCost_cons, add_assoc]

/-- A plan that raises no fault runs its head, and then its tail for the sample the head took. -/
theorem runPlan_going {p : Plan} {s t : State} (h : runPlan p s = .going t) :
    ∃ u, runSteps p.head s = .going u ∧ runSteps (p.tail u.sampled) u = .going t := by
  unfold runPlan at h
  cases hu : runSteps p.head s with
  | going u =>
    rw [hu] at h
    exact ⟨u, rfl, h⟩
  | raised e u =>
    rw [hu] at h
    cases h

/-- What a plan that raises no fault costs, for the sample its head took. -/
theorem runPlan_spent {p : Plan} {s t : State} (hw : s.hidden.waitLeft = none) (h : runPlan p s = .going t) :
    ∃ u, runSteps p.head s = .going u
      ∧ t.spent = s.spent + stepsCost s.cfg (p.head ++ p.tail u.sampled) := by
  obtain ⟨u, hu, ht⟩ := runPlan_going h
  obtain ⟨hsu, hcu, hwu⟩ := runSteps_spent hw hu
  obtain ⟨hst, -, -⟩ := runSteps_spent hwu ht
  exact ⟨u, hu, by rw [hst, hsu, hcu, stepsCost_append, add_assoc]⟩

/-- A command that ends without fault has run its plan. -/
theorem exec_unfaulted {i : Instr} {s t : State} (hh : s.halted = false) (h : exec i s = .next t)
    (ht : t.halted = false) :
    (planOf s.cfg i).check s.dirset = none ∧ runPlan (planOf s.cfg i) (s.inProgress i 0 .idle) = .going t := by
  rw [exec_eq_runCommand] at h
  rcases runCommand_cases i (planOf s.cfg i) s with ⟨hh', -⟩ | ⟨-, e, -, hr⟩ | ⟨-, hc, hr⟩
  · simp [hh] at hh'
  · obtain rfl := Host.Outcome.next.inj (hr.symm.trans h)
    simp at ht
  · obtain rfl := Host.Outcome.next.inj (hr.symm.trans h)
    refine ⟨hc, ?_⟩
    cases hp : runPlan (planOf s.cfg i) (s.inProgress i 0 .idle) with
    | going u => rfl
    | raised e u => simp [hp, Flow.settle] at ht

/-! ### The plans -/

/-- The row of R258 in ticks, pin trace entries and exchanges. -/
def rowCost (cfg : Config) (i : Instr) (smp : Sensors) : Nat × Nat × Nat :=
  ((commandCost cfg i smp).1, (commandCost cfg i smp).2.1, (commandCost cfg i smp).2.1 + (commandCost cfg i smp).2.2)

/-- A maneuver is eight commits and the hold, with or without the repetition index (42_maneuver R164). -/
theorem stepsCost_segment (cfg : Config) (g : Option Nat × Maneuver) :
    stepsCost cfg (segmentSteps g) = (cfg.cmdDelay, 8, 8) := by
  obtain ⟨_ | n, m⟩ := g <;>
    simp [segmentSteps, maneuverSteps, applyBridge, channelWrite, portWrite, withUpdate, MicroStep.cost, delayTicks]

theorem stepsCost_segments (cfg : Config) (gs : List (Option Nat × Maneuver)) :
    stepsCost cfg (gs.flatMap segmentSteps) = gs.length • (cfg.cmdDelay, 8, 8) := by
  induction gs with
  | nil => exact (zero_smul _ _).symm
  | cons g gs ih => rw [List.flatMap_cons, stepsCost_append, stepsCost_segment, ih, List.length_cons, succ_nsmul']

/-- The row of a console cycle, by its action. -/
def cycleCost (cfg : Config) : KeyAction → Nat × Nat × Nat
  | .toggleChannel _ => (cfg.conDelay, 1, 2)
  | .bridge _ _ => (cfg.conDelay, 2, 3)
  | .resetCounters => (cfg.conDelay, 0, 1)
  | .noAction => (cfg.conDelay, 0, 1)
  | .quit => (0, 1, 2)

theorem rowCost_contickKey (cfg : Config) (key : Byte) (smp : Sensors) :
    rowCost cfg (.contickKey key) smp = cycleCost cfg (dispatchKey cfg.keymap key) := by
  simp only [rowCost, commandCost]
  cases dispatchKey cfg.keymap key <;> rfl

theorem stepsCost_consolePlan (cfg : Config) (action : KeyAction) :
    stepsCost cfg (consolePlan action).head = cycleCost cfg action := by
  cases action <;>
    simp [consolePlan, straightPlan, actionSteps, cycleEnd, channelToggle, applyBridge, channelWrite, portWrite,
      MicroStep.cost, delayTicks, cycleCost]

theorem stepsCost_navtick (cfg : Config) (smp : Sensors) :
    stepsCost cfg (navtickPlan.head ++ navtickPlan.tail smp) = rowCost cfg .navtick smp := by
  simp only [navtickPlan, navActions_eq, stepsCost_append, stepsCost_segments, cycleSegments, rowCost, commandCost]
  split <;> simp [MicroStep.cost, delayTicks, add_comm]

/-- The micro-steps of a command with legal operands add up to its row. -/
theorem stepsCost_planOf {cfg : Config} {i : Instr} (hl : operandsLegal cfg i) (smp : Sensors) :
    stepsCost cfg ((planOf cfg i).head ++ (planOf cfg i).tail smp) = rowCost cfg i smp := by
  cases i with
  | bridge a b =>
    obtain ⟨p, c, hp, hc⟩ := bridgeOperands_of_legal hl
    simp only [planOf, bridgePlan, straightPlan, hp, hc]
    rfl
  | manv a =>
    have hm : stepsCost cfg (maneuverSteps (maneuverOfCode a)) = _ := stepsCost_segment cfg (none, _)
    simp [planOf, manvPlan, straightPlan, hm, respondPlain, MicroStep.cost, rowCost, commandCost]
  | navtick => exact stepsCost_navtick cfg smp
  | contick => exact (congrArg _ (List.append_nil _)).trans (stepsCost_consolePlan cfg .noAction)
  | contickKey key =>
    rw [rowCost_contickKey, ← stepsCost_consolePlan]
    exact congrArg _ (List.append_nil _)
  | _ => rfl

/-- NAVTICK's head takes its sample from its first exchange. -/
theorem navtick_head_sampled {s u : State} {p : Sensors} (hp : s.exchangeAt 0 = .done p)
    (hu : runSteps navtickPlan.head (s.inProgress .navtick 0 .idle) = .going u) : u.sampled = p := by
  rw [navtickPlan, runSteps_cons, perform_sample_done (t := s) rfl rfl hp] at hu
  cases hu
  rfl

/-- Settles O50: a command that ends without fault has run its micro-steps, which add up to its row. -/
theorem timingTable : Obligations.TimingTable := by
  intro i s t p hh h ht hnav
  obtain ⟨hc, hrun⟩ := exec_unfaulted hh h ht
  obtain ⟨u, hu, hspent⟩ := runPlan_spent rfl hrun
  have hsmp : rowCost s.cfg i u.sampled = rowCost s.cfg i p := by
    cases i with
    | navtick => rw [navtick_head_sampled (hnav rfl) hu]
    | _ => rfl
  rw [State.inProgress, stepsCost_planOf (operandsLegal_of_check hc), hsmp] at hspent
  exact ⟨congrArg (·.1) hspent, congrArg (·.2.1) hspent, congrArg (·.2.2) hspent⟩

end Sys2Proof.Machine
end

section
/-! SUPPORT. What the environment's answers are to a command that takes no sample (70 R255, 20_memory R59): whether
each of its exchanges succeeds. -/

namespace Sys2Proof.Machine

/-! ### States with other answers to come -/

/-- `s` with other answers of the environment to come. -/
def State.withEnv (env : List Exchange) (s : State) : State := { s with env := env }

/-- `s'` is `s` but for the answers to come, and the same exchanges succeed. -/
structure State.Alike (s s' : State) : Prop where
  same : s' = s.withEnv s'.env
  answers : ∀ n, exchangeSucceeds (s'.exchangeAt n) = exchangeSucceeds (s.exchangeAt n)

/-- What performs no exchange keeps states alike. -/
theorem State.Alike.update {s s' : State} (h : s.Alike s') (f : State → State)
    (hf : ∀ t env, f (t.withEnv env) = (f t).withEnv env) (hd : ∀ t, (f t).draws = t.draws) :
    (f s).Alike (f s') := by
  obtain ⟨hs, hx⟩ := h
  have he (t : State) : (f t).env = t.env := (congrArg State.env (hf t t.env) :)
  exact ⟨by rw [he, ← hf, ← hs], fun n => by
    rw [exchangeAt_congr (he s') (hd s'), exchangeAt_congr (he s) (hd s), hx]⟩

/-- What performs one exchange keeps states alike. -/
theorem State.Alike.exchange {s s' : State} (h : s.Alike s') (f : State → State)
    (hf : ∀ t env, f (t.withEnv env) = (f t).withEnv (env.drop 1)) (hd : ∀ t, (f t).draws = t.draws + 1) :
    (f s).Alike (f s') := by
  obtain ⟨hs, hx⟩ := h
  have he (t : State) : (f t).env = t.env.drop 1 := (congrArg State.env (hf t t.env) :)
  exact ⟨by rw [he, ← hf, ← hs], fun n => by
    rw [exchangeAt_shift 1 (he s') (hd s'), exchangeAt_shift 1 (he s) (hd s), hx]⟩

/-- Two stretches of a command that end the same, in states that are alike. -/
inductive Flow.Alike : Flow → Flow → Prop where
  | going {s s' : State} : s.Alike s' → Flow.Alike (.going s) (.going s')
  | raised {s s' : State} (e : FaultCode) : s.Alike s' → Flow.Alike (.raised e s) (.raised e s')

theorem Flow.Alike.andThen {x x' : Flow} {f : State → Flow} (h : x.Alike x')
    (hf : ∀ s s' : State, s.Alike s' → (f s).Alike (f s')) : (x.andThen f).Alike (x'.andThen f) := by
  cases h with
  | going hs => exact hf _ _ hs
  | raised e hs => exact .raised e hs

/-! ### Micro-steps without a sample -/

theorem enterMicro_withEnv (m : MicroStep) (s : State) (env : List Exchange) :
    enterMicro m (s.withEnv env) = (enterMicro m s).withEnv env := by
  have hf (us : List RegUpdate) (t : State) :
      us.foldl applyUpdate (t.withEnv env) = (us.foldl applyUpdate t).withEnv env := by
    induction us generalizing t with
    | nil => rfl
    | cons u us ih =>
      rw [List.foldl_cons, List.foldl_cons, ← ih]
      cases u <;> rfl
  unfold enterMicro
  split
  · rw [if_pos ‹_›]
  · rw [if_neg ‹_›]; exact hf _ _

theorem advance_withEnv (s : State) (env : List Exchange) : (s.withEnv env).advance = s.advance.withEnv env := by
  cases hq : s.seq <;> simp [State.advance, State.withEnv, hq]

theorem endWait_withEnv (n : Nat) (s : State) (env : List Exchange) :
    (s.withEnv env).endWait n = (s.endWait n).withEnv env :=
  advance_withEnv { s with ticks := s.ticks + n, hidden := { s.hidden with waitLeft := none } } env

theorem advance_alike {s s' : State} (h : s.Alike s') : s.advance.Alike s'.advance :=
  h.update State.advance advance_withEnv State.advance_draws

theorem commit_alike {s s' : State} (h : s.Alike s') : (commit s).Alike (commit s') := by
  have hx := h.answers 0
  cases hs : exchangeSucceeds (s.exchangeAt 0) with
  | true =>
    rw [commit_done hs, commit_done (hx.trans hs)]
    exact .going (h.exchange (fun t => t.committed t.out) (fun _ _ => rfl) fun _ => rfl)
  | false =>
    rw [commit_failed hs, commit_failed (hx.trans hs)]
    exact .raised _ (h.exchange State.exchangeLost (fun _ _ => rfl) fun _ => rfl)

/-- A micro-step other than a sample does not look at the pins. -/
theorem perform_alike {m : MicroStep} {s s' : State} (hm : m.prim ≠ .sample) (h : s.Alike s') :
    (perform m s).Alike (perform m s') := by
  have he : (enterMicro m s).Alike (enterMicro m s') :=
    h.update (enterMicro m) (enterMicro_withEnv m) (enterMicro_draws m)
  unfold perform
  cases hp : m.prim with
  | commit => exact (commit_alike he).andThen fun _ _ h => .going (advance_alike h)
  | sample => exact absurd hp hm
  | wait d =>
    exact .going (he.update (fun t => t.endWait (waitTicks d t)) (fun t => endWait_withEnv (waitTicks d t) t)
      fun t => State.endWait_draws _ t)
  | respond r => exact .going (he.update (finish r) (fun _ _ => by cases r <;> rfl) fun _ => rfl)

theorem runSteps_alike {l : List MicroStep} (hl : ∀ m ∈ l, m.prim ≠ .sample) {s s' : State} (h : s.Alike s') :
    (runSteps l s).Alike (runSteps l s') := by
  induction l generalizing s s' with
  | nil => exact .going h
  | cons m ms ih =>
    obtain ⟨hm, hms⟩ := List.forall_mem_cons.mp hl
    exact (perform_alike hm h).andThen fun _ _ => ih hms

/-! ### Commands without a sample -/

theorem takeFault_alike {s s' : State} (e : FaultCode) (h : s.Alike s') : (takeFault e s).Alike (takeFault e s') := by
  have he : (s.enterFault e).Alike (s'.enterFault e) := h.update (State.enterFault e) (fun _ _ => rfl) fun _ => rfl
  have hc : (faultCleanup e s).Alike (faultCleanup e s') := by
    have hd : s'.dirset = s.dirset := (congrArg State.dirset h.same :)
    unfold faultCleanup
    rw [hd]
    split
    · have hx := commit_alike he
      generalize commit (s.enterFault e) = x, commit (s'.enterFault e) = x' at hx ⊢
      cases hx with
      | going hx => exact hx
      | raised _ hx => exact hx
    · exact he
  exact hc.update (faultRespond e) (fun _ _ => rfl) fun _ => rfl

theorem settle_alike {x x' : Flow} (h : x.Alike x') : x.settle.Alike x'.settle := by
  cases h with
  | going h => exact h
  | raised e h => exact takeFault_alike e h

/-- No micro-step of these commands is a sample. -/
theorem planOf_no_sample (cfg : Config) {i : Instr}
    (hi : i ≠ .read ∧ i ≠ .sense ∧ i ≠ .navtick ∧ i ≠ .contick ∧ ∀ key, i ≠ .contickKey key) :
    ∀ m ∈ (planOf cfg i).head, m.prim ≠ .sample := by
  obtain ⟨hread, hsense, hnav, hcon, hkey⟩ := hi
  cases i with
  | read => exact absurd rfl hread
  | sense => exact absurd rfl hsense
  | navtick => exact absurd rfl hnav
  | contick => exact absurd rfl hcon
  | contickKey key => exact absurd rfl (hkey key)
  | bridge a b =>
    simp only [planOf, bridgePlan, straightPlan]
    cases pairOfCode a <;> cases bridgeCommandOfCode b <;>
      simp [applyBridge, channelWrite, portWrite, respondPlain]
  | manv a =>
    simp only [planOf, manvPlan, straightPlan]
    cases maneuverOfCode a <;> decide
  | _ => simp [planOf, straightPlan, setdirPlan, writePlan, setPlan, clrPlan, tglPlan, zeroallPlan, portWrite,
      channelWrite, channelToggle, respondPlain, memWrite]

theorem exec_alike {i : Instr} {s s' : State} (hn : i ≠ .navtick)
    (hi : ∀ m ∈ (planOf s.cfg i).head, m.prim ≠ .sample) (h : s.Alike s') :
    ∃ t t', exec i s = .next t ∧ exec i s' = .next t' ∧ t.Alike t' := by
  have hh : s'.halted = s.halted := (congrArg State.halted h.same :)
  have hd : s'.dirset = s.dirset := (congrArg State.dirset h.same :)
  have hc : s'.cfg = s.cfg := (congrArg State.cfg h.same :)
  rw [exec_eq_runCommand, exec_eq_runCommand, hc]
  rcases runCommand_cases i (planOf s.cfg i) s with ⟨hs, hx⟩ | ⟨hs, e, hchk, hx⟩ | ⟨hs, hchk, hx⟩ <;> rw [hx]
  · exact ⟨_, _, rfl, runCommand_halted (hh.trans hs), h.update refuseHalted (fun _ _ => rfl) fun _ => rfl⟩
  · exact ⟨_, _, rfl, runCommand_fault (hh.trans hs) (hd ▸ hchk), takeFault_alike e h⟩
  · refine ⟨_, _, rfl, runCommand_run (hh.trans hs) (hd ▸ hchk), settle_alike ?_⟩
    rw [planOf_straight _ i hn, runPlan_straight, runPlan_straight]
    exact runSteps_alike hi (h.update (State.inProgress i 0 .idle) (fun _ _ => rfl) fun _ => rfl)

/-- Settles O49: the two runs go through states that are alike. -/
theorem inputPinsReachOnlySamples : Obligations.InputPinsReachOnlySamples := by
  intro i s env hi hx
  have ⟨_, _, hnav, _⟩ := hi
  obtain ⟨t, u, ht, hu, halike⟩ :=
    exec_alike hnav (planOf_no_sample s.cfg hi) (s := s) (s' := s.withEnv env) ⟨rfl, hx⟩
  exact ⟨t, u, ht, hu, halike.same⟩

end Sys2Proof.Machine
end
